-- ==== Sys2Proof/Word.lean ====
section
/-! DEFINITION. The word types of the stimulus port and the host register file, and the fixed-size
groups (three of a kind, four of a kind) that several rules index. -/

namespace Sys2Proof

/-- One 64-bit stimulus word (R90). -/
abbrev StimWord := BitVec 64

/-- One 32-bit host register word (R50). -/
abbrev RegWord := BitVec 32

/-- An 8-bit mux-select code, with its channel bit a tag (R100). -/
abbrev MuxCode := BitVec 8

/-- An index 0..2: a preset (R25), a calibration point (R31). -/
inductive Idx3 where
  | i0 | i1 | i2
deriving DecidableEq, Repr, Inhabited

/-- The number an index stands for. -/
def Idx3.num : Idx3 → Nat
  | .i0 => 0
  | .i1 => 1
  | .i2 => 2

/-- The index a number names, if it is one of 0..2. -/
def Idx3.ofNum : Nat → Option Idx3
  | 0 => some .i0
  | 1 => some .i1
  | 2 => some .i2
  | _ => none

/-- Three values of one type, numbered 0..2. -/
structure Triple (α : Type) where
  x0 : α
  x1 : α
  x2 : α
deriving DecidableEq, Repr, Inhabited

/-- The value numbered `i`. -/
def Triple.get {α : Type} (t : Triple α) : Idx3 → α
  | .i0 => t.x0
  | .i1 => t.x1
  | .i2 => t.x2

/-- The three values with number `i` replaced. -/
def Triple.set {α : Type} (t : Triple α) (i : Idx3) (v : α) : Triple α :=
  match i with
  | .i0 => { t with x0 := v }
  | .i1 => { t with x1 := v }
  | .i2 => { t with x2 := v }

/-- An index 0..3 of the four gain words `k[0..3]` (R29, R31). -/
inductive Idx4 where
  | j0 | j1 | j2 | j3
deriving DecidableEq, Repr, Inhabited

/-- Four values of one type, numbered 0..3. -/
structure Quad (α : Type) where
  x0 : α
  x1 : α
  x2 : α
  x3 : α
deriving DecidableEq, Repr, Inhabited

/-- The value numbered `j`. -/
def Quad.get {α : Type} (t : Quad α) : Idx4 → α
  | .j0 => t.x0
  | .j1 => t.x1
  | .j2 => t.x2
  | .j3 => t.x3

/-- The four values with number `j` replaced. -/
def Quad.set {α : Type} (t : Quad α) (j : Idx4) (v : α) : Quad α :=
  match j with
  | .j0 => { t with x0 := v }
  | .j1 => { t with x1 := v }
  | .j2 => { t with x2 := v }
  | .j3 => { t with x3 := v }

end Sys2Proof
end

