-- ==== Sys2Proof/Syntax.lean ====
section
/-! DEFINITION. The 58 operations of 30_encoding.md R94, one constructor per row of
spec/opcode_table.json, with the operands each rule gives it. -/

namespace Sys2Proof

/-- A channel index: `ch0` is the spec's `c = 0`, `ch1` its `c = 1` (R13). -/
inductive Chan where
  | ch0 | ch1
deriving DecidableEq, Repr, Inhabited

/-- Iron types with the codes 0..5 of R34; the reserved codes 6 and 7 are never held. -/
inductive Iron where
  | unknown | t12 | jbc | attenTweezers | weller | dummy
deriving DecidableEq, Repr, Inhabited

/-- The states CH.SETST may be asked for (R185: "never `overload`"). -/
inductive SetTarget where
  | off | noTool | active | setback | noTip | fixedPower
deriving DecidableEq, Repr, Inhabited

/-- The causes of a fatal trap, codes 1..3 of R281. -/
inductive FatalCause where
  | tipMismatch | adcDesync | measMux
deriving DecidableEq, Repr, Inhabited

/-- The operations of R94. Widths are those of the stimulus word's fields (R95) and, for internal
operations, of the operands their rules name; a signed operand is held in two's complement. -/
inductive Instr where
  -- events (R310, R221, R222, R226, R229)
  | evRst
  | evZc
  | evTmr
  | evAdc (tag : BitVec 8) (raw : BitVec 16)
  | evOc
  -- scheduler commands (R235 to R239)
  | ctlEnable
  | ctlDisable
  | ctlToggle
  | ctlChiptemp
  -- channel commands (R200 to R210)
  | chSetstate (c : Chan) (idx : BitVec 4)
  | chSettemp (c : Chan) (t : BitVec 32)
  | chNextpreset (c : Chan)
  | chChangetip (c : Chan) (slot : BitVec 32)
  | chInteract (c : Chan)
  | chFixedpwr (c : Chan) (d : BitVec 32)
  | chGetstate (c : Chan)
  | chGetcur (c : Chan)
  | chGettgt (c : Chan)
  | chGetpwr (c : Chan)
  | chIsmod (c : Chan)
  -- calibration commands (R165 to R169)
  | calSave (c : Chan) (i : BitVec 4)
  | calSet (c : Chan) (i : BitVec 4) (t : BitVec 16) (m : BitVec 32)
  | calGett (c : Chan) (i : BitVec 4)
  | calGetm (c : Chan) (i : BitVec 4)
  | calInst (c : Chan)
  -- tip and register commands (R253 to R255, R270, R271)
  | tipAlloc (n : BitVec 16)
  | tipFree (slot : BitVec 16)
  | tipFind (n : BitVec 16)
  | regRd (a : BitVec 16)
  | regWr (a : BitVec 16) (v : BitVec 32)
  -- duty-cycle counter (R121 to R123)
  | dccSet (c : Chan) (d : BitVec 32)
  | dccAdv (c : Chan)
  | dccIson (c : Chan)
  -- controllers (R131, R132, R134, R138)
  | ctlLoad (c : Chan) (slot : BitVec 8)
  | ctlEn (c : Chan) (b : Bool)
  | pidStep (c : Chan) (target : BitVec 16) (actual : BitVec 16)
  | tbhStep (c : Chan) (target : BitVec 16) (actual : BitVec 16)
  -- mux codes (R101 to R103)
  | muxMake (ch sub amp bias boost : Bool)
  | muxTag (m : BitVec 8) (c : Chan)
  | muxStrip (t : BitVec 8)
  -- measurement block (R152, R157, R160 to R163)
  | measSeq (c : Chan)
  | measProc (c : Chan) (m : BitVec 8) (raw : BitVec 16)
  | measTemp (c : Chan)
  | measItemp (c : Chan)
  | measUpd (c : Chan) (target : BitVec 16)
  | measDrive (c : Chan)
  -- channel state machine (R191, R194, R195, R197 to R199, R189, R185)
  | chIdent (c : Chan) (raw : BitVec 16)
  | chSetiron (c : Chan) (t : Iron)
  | chTipsel (c : Chan)
  | chIdle (c : Chan) (ms : BitVec 32)
  | chOverload (c : Chan)
  | chUpddrive (c : Chan)
  | chProc (c : Chan) (m : BitVec 8) (raw : BitVec 16)
  | chSetst (c : Chan) (target : SetTarget)
  -- sequencer and trap (R224, R227, R228, R283)
  | seqBuild
  | seqNext
  | ctrlUpdate
  | trapFatal (code : FatalCause)
deriving DecidableEq, Repr, Inhabited

end Sys2Proof
end

