-- ==== Sys2Proof/Config.lean ====
section
/-! DEFINITION. The parameters of 00_scope.md R7 and R8 (what an implementation fixes) and the free
values (what the spec leaves open). The parameters are plain data carried in `State.cfg`, which no
operation writes (R9); the free values are opaque constants with no body. -/

namespace Sys2Proof

/-- The controller kinds of R130. -/
inductive CtrlKind where
  | pid | tbh
deriving DecidableEq, Repr, Inhabited

/-- One value for each of the six iron codes (R34). -/
structure PerIron (α : Type) where
  unknown : α
  t12 : α
  jbc : α
  attenTweezers : α
  weller : α
  dummy : α
deriving DecidableEq, Repr, Inhabited

/-- The value for an iron. -/
def PerIron.get {α : Type} (p : PerIron α) : Iron → α
  | .unknown => p.unknown
  | .t12 => p.t12
  | .jbc => p.jbc
  | .attenTweezers => p.attenTweezers
  | .weller => p.weller
  | .dummy => p.dummy

/-- One value for each of the five known irons (R18): parameters R8 and R251, R252 give for every
known iron only. -/
structure PerKnown (α : Type) where
  t12 : α
  jbc : α
  attenTweezers : α
  weller : α
  dummy : α
deriving DecidableEq, Repr, Inhabited

/-- The value for an iron; `free` stands for `Unknown`, for which the spec gives none. -/
def PerKnown.get {α : Type} (p : PerKnown α) (free : α) : Iron → α
  | .unknown => free
  | .t12 => p.t12
  | .jbc => p.jbc
  | .attenTweezers => p.attenTweezers
  | .weller => p.weller
  | .dummy => p.dummy

/-- A measurement sequence as it is stored (R105): four bytes, up to three untagged codes followed by
the sentinel `0xFF`. -/
structure StoredSeq where
  b0 : MuxCode
  b1 : MuxCode
  b2 : MuxCode
  b3 : MuxCode
deriving DecidableEq, Repr, Inhabited

/-- The configuration: every parameter of R8. Its legal ranges are `configLegal`
(Machine/Legal.lean). The conversion functions of R153 are tables: the result for raw value `r` is
entry `r`, and the spec's default function where the table has no such entry (log 10). -/
structure Config where
  /-- `ADC_BITS`: width of a raw ADC value. -/
  adcBits : Nat
  /-- `TIP_THRESHOLD`: raw value below which a tip is present. -/
  tipThreshold : Nat
  /-- `AVG_LEN`: length of each raw-sample moving average. -/
  avgLen : Nat
  /-- `PWR_AVG_LEN`: length of the power moving average. -/
  pwrAvgLen : Nat
  /-- `DCC_UPPER[iron]`: upper limit of the duty-cycle counter. -/
  dccUpper : PerIron Nat
  /-- `OUT_MIN_M`, in milli-percent. -/
  outMinM : Nat
  /-- `OUT_MAX_M`, in milli-percent. -/
  outMaxM : Nat
  /-- `INTERVAL_US`: the control interval in microseconds. -/
  intervalUs : Nat
  /-- `IDLE_TICK_MS`: argument of CH.IDLE each control update. -/
  idleTickMs : Nat
  /-- `SAMPLE_DELAY_US`: delay from zero crossing to sequence start. -/
  sampleDelayUs : Nat
  /-- `IDENT_INTERVAL`: control intervals between tool identifications. -/
  identInterval : Nat
  /-- `ID_PULLUP_OHMS`: upper resistor of the tool-ID divider. -/
  idPullupOhms : Nat
  /-- `REFRESH_INTERVAL`: zero crossings per display-refresh request. -/
  refreshInterval : Nat
  /-- `REPORT_INTERVAL`: zero crossings per PID-log request. -/
  reportInterval : Nat
  /-- `NUM_TIP_SETTINGS`: slots in the tip pool. -/
  numTipSettings : Nat
  /-- `NUM_TIP_NAMES`: entries of the static tip-name table. -/
  numTipNames : Nat
  /-- `TIPNAME_IRON[n]`: iron type of each tip name. -/
  tipNameIron : List Iron
  /-- `DEFAULT_TIP[iron]`: default tip name per known iron. -/
  defaultTip : PerKnown (BitVec 16)
  /-- `DEFAULT_CAL[iron]`: calibration measurements of a newly allocated tip. -/
  defaultCal : PerKnown (Triple (BitVec 32))
  /-- `DEFAULT_PID[iron]`: gains of a newly allocated tip. -/
  defaultPid : PerIron (Quad (BitVec 32))
  /-- `CTRL_KIND[iron]`: which controller steps. -/
  ctrlKind : PerIron CtrlKind
  /-- `VSEL[iron]`: code driven on `volt_sel` when the channel is on. -/
  vsel : PerKnown (BitVec 2)
  /-- `PNOM_MW[iron]`: nominal heater power in milliwatts. -/
  pnomMw : PerKnown (BitVec 32)
  /-- `SEQ[iron]`: measurement sequence. -/
  seq : PerIron StoredSeq
  /-- `CAL_R_MIN`, in M1000. -/
  calRMin : Nat
  /-- `CAL_R_MAX`, in M1000. -/
  calRMax : Nat
  /-- `TcUnits` as a table: thermocouple voltage in microvolts. -/
  tcTable : List Nat
  /-- `PtcUnits` as a table: thermistor resistance in milliohms. -/
  ptcTable : List Nat
  /-- `CjTemp` as a table: cold-junction temperature in T10. -/
  cjTable : List Int
deriving DecidableEq, Repr

/-- `ADC_FS = 2^ADC_BITS - 1`: full-scale raw value (R8). -/
def Config.adcFs (cfg : Config) : Nat := 2 ^ cfg.adcBits - 1

/-- The default column of R8 with the tables of R151, R251 and R252: the configuration of every
vector of 95_test_vectors.md. -/
def Config.default : Config :=
  { adcBits := 16
    tipThreshold := 58981
    avgLen := 8
    pwrAvgLen := 100
    dccUpper := ⟨0, 100, 100, 100, 100, 0⟩
    outMinM := 0
    outMaxM := 100000
    intervalUs := 10000
    idleTickMs := 10
    sampleDelayUs := 500
    identInterval := 16
    idPullupOhms := 10000
    refreshInterval := 10
    reportInterval := 10
    numTipSettings := 8
    numTipNames := 16
    tipNameIron :=
      List.replicate 6 .t12 ++ List.replicate 4 .jbc ++ List.replicate 2 .attenTweezers
        ++ List.replicate 3 .weller ++ [.dummy]
    defaultTip := ⟨0, 6, 10, 12, 15⟩
    defaultCal :=
      ⟨⟨5000, 7000, 9000⟩, ⟨5000, 7000, 9000⟩, ⟨5000, 7000, 9000⟩, ⟨30000, 40000, 50000⟩,
        ⟨1000, 2000, 3000⟩⟩
    defaultPid :=
      ⟨⟨2000, 500, 2, 50000⟩, ⟨2000, 500, 2, 50000⟩, ⟨2000, 500, 2, 50000⟩,
        ⟨2000, 500, 2, 50000⟩, ⟨2000, 500, 2, 50000⟩, ⟨2000, 500, 2, 50000⟩⟩
    ctrlKind := ⟨.pid, .pid, .pid, .pid, .pid, .pid⟩
    vsel := ⟨1, 1, 1, 1, 1⟩
    pnomMw := ⟨50000, 50000, 50000, 50000, 50000⟩
    seq :=
      ⟨⟨0xFF, 0xFF, 0xFF, 0xFF⟩, ⟨0x04, 0x0A, 0xFF, 0xFF⟩, ⟨0x04, 0x0A, 0xFF, 0xFF⟩,
        ⟨0x04, 0x06, 0x0A, 0xFF⟩, ⟨0x08, 0xFF, 0xFF, 0xFF⟩, ⟨0xFF, 0xFF, 0xFF, 0xFF⟩⟩
    calRMin := 1
    calRMax := 16777215
    tcTable := []
    ptcTable := []
    cjTable := [] }

/-! The constants R7 fixes. -/

/-- `DCC_RESOLUTION`: ticks per pulse-density period (R7). -/
def dccResolution : Nat := 100

/-- `CAL_TEMP[0..2]`: 250, 325, 400 degrees Celsius in T10 (R7). -/
def calTemp : Triple (BitVec 16) := ⟨2500, 3250, 4000⟩

/-- `CAL_TC_MIN`, `CAL_TC_MAX`: plausible thermocouple value at calibration (R7). -/
def calTcMin : Nat := 500
/-- See `calTcMin`. -/
def calTcMax : Nat := 12000
/-- `CAL_CJ_MIN`, `CAL_CJ_MAX`: plausible cold-junction temperature at calibration (R7). -/
def calCjMin : Int := 0
/-- See `calCjMin`. -/
def calCjMax : Int := 600

/-! Free values: what the spec leaves open. No body, so no proof can lean on a value. -/

/-- The operands of an internal operation's word: an INT word encodes none (R92), so the decoder's
answer for one carries these. FREE VALUE, log 8. -/
opaque Config.intChan : StimWord → Chan
/-- One-bit operands of an INT word, by position. FREE VALUE, log 8. -/
opaque Config.intBit : Nat → StimWord → Bool
/-- 8-bit operands of an INT word. FREE VALUE, log 8. -/
opaque Config.intByte : StimWord → BitVec 8
/-- 16-bit operands of an INT word, by position. FREE VALUE, log 8. -/
opaque Config.intHalf : Nat → StimWord → BitVec 16
/-- 32-bit operands of an INT word. FREE VALUE, log 8. -/
opaque Config.intWord : StimWord → BitVec 32
/-- Iron operands of an INT word. FREE VALUE, log 8. -/
opaque Config.intIron : StimWord → Iron
/-- Target-state operands of an INT word. FREE VALUE, log 8. -/
opaque Config.intTarget : StimWord → SetTarget
/-- Fatal-cause operands of an INT word. FREE VALUE, log 8. -/
opaque Config.intCause : StimWord → FatalCause

/-- Which payload `adc_done` carries after two pulses merged (R62 does not say): a function of the
pending and the new payload. FREE VALUE, log 7. -/
opaque Config.mergedAdc : BitVec 8 × BitVec 16 → BitVec 8 × BitVec 16 → BitVec 8 × BitVec 16
/-- Which word `cmd_valid` carries after two pulses merged (R62 does not say). FREE VALUE, log 7. -/
opaque Config.mergedCmd : StimWord → StimWord → StimWord

/-- `VSEL[Unknown]`: R8 gives the parameter for known irons only. FREE VALUE, log 9. -/
opaque Config.unknownVsel : BitVec 2
/-- `PNOM_MW[Unknown]`: R8 gives the parameter for known irons only. FREE VALUE, log 9. -/
opaque Config.unknownPnom : BitVec 32
/-- `DEFAULT_TIP[Unknown]` "does not exist and is never asked for" (R251). FREE VALUE, log 9. -/
opaque Config.unknownTipName : BitVec 16
/-- `DEFAULT_CAL[Unknown]`: R252 gives none. FREE VALUE, log 9. -/
opaque Config.unknownCal : Triple (BitVec 32)
/-- The iron type of a tip name beyond the table (R251 has no such entry). FREE VALUE, log 9. -/
opaque Config.absentNameIron : BitVec 16 → Iron
/-- The entry of the conversion queue past index 7 (R73: "a model need not define" it). FREE VALUE,
log 9. -/
opaque Config.absentTag : Nat → MuxCode

end Sys2Proof
end

