-- ==== Sys2Proof/Machine/State.lean ====
section
/-! DEFINITION. The machine's state: every element of 10_state.md R21 to R31, the output pins of R61, the
pending latches of R62 and the one input pin that is read by level (R60), as plain data; why a step can
stop; and the state after reset (R65, R310). -/

namespace Sys2Proof.Machine

/-- Channel states (R33): codes 0..6 in this order; the reserved code 7 is never held. -/
inductive ChState where
  | off | noTool | active | setback | overload | noTip | fixedPower
deriving DecidableEq, Repr, Inhabited

/-- Why a host command was rejected, codes 1..12 of R284 in this order. -/
inductive RejectCode where
  | illegal | addr | ro | range | state | noTip | slot | full | disabled | noIron | halted | inUse
deriving DecidableEq, Repr, Inhabited

/-- A moving average (R28); its length `N` is the length of `buf`. -/
structure MovingAvg where
  buf : List (BitVec 32)
  sum : BitVec 32
  cnt : Nat
  idx : Nat
deriving DecidableEq, Repr, Inhabited

/-- The empty moving average of length `n` (R28). -/
def MovingAvg.empty (n : Nat) : MovingAvg :=
  { buf := List.replicate n 0, sum := 0, cnt := 0, idx := 0 }

/-- One record of the tip pool (R31). -/
structure TipRecord where
  /-- Tip-name index, or `FREE_ENTRY = 0xFFFF`. -/
  name : BitVec 16
  /-- Bit 0 `TEMP_CALIBRATED`, bit 1 `PID_CALIBRATED`. -/
  flags : BitVec 2
  calT : Triple (BitVec 16)
  calM : Triple (BitVec 32)
  k : Quad (BitVec 32)
deriving DecidableEq, Repr, Inhabited

/-- `FREE_ENTRY`: the name of a free slot (R31). -/
def freeEntry : BitVec 16 := 0xFFFF

/-- A free slot as reset and TIP.FREE leave it (R31, R254). -/
def TipRecord.free : TipRecord :=
  { name := freeEntry, flags := 0, calT := ⟨0, 0, 0⟩, calM := ⟨0, 0, 0⟩, k := ⟨0, 0, 0, 0⟩ }

/-- `NONE` as a tip reference of a channel (R25). -/
def tipNone : BitVec 8 := 0xFF

/-- "None" as a `selected_tip` (R26). -/
def selectedNone : BitVec 16 := 0xFFFF

/-- The state of one channel: R25 to R27, R29, R30. -/
structure Channel where
  -- the channel (R25)
  state : ChState
  iron : Iron
  userTemp : BitVec 16
  /-- s16, T10. -/
  curTemp : BitVec 16
  preset : Idx3
  idleMs : BitVec 32
  /-- Slot index, or `0xFF` = NONE. -/
  tip : BitVec 8
  identCnt : BitVec 8
  idOhms : BitVec 32
  fixedDuty : BitVec 7
  /-- Output pins: bit 0 leg A, bit 1 leg B (R106). -/
  drive : BitVec 2
  /-- Output pins: 0 = disabled (R107). -/
  voltSel : BitVec 2
  /-- Output pin. -/
  led : Bool
  -- the settings (R26)
  presets : Triple (BitVec 16)
  setbackTemp : BitVec 16
  setbackTime : BitVec 16
  safetyOffTime : BitVec 16
  /-- Slot index, or `0xFFFF` = none. -/
  selectedTip : BitVec 16
  -- the measurement block (R27)
  avgA : MovingAvg
  avgB : MovingAvg
  avgC : MovingAvg
  rawA : BitVec 16
  rawB : BitVec 16
  rawC : BitVec 16
  presentA : Bool
  presentB : Bool
  pwr : MovingAvg
  -- the controller (R29)
  k : Quad (BitVec 32)
  ctlEn : Bool
  /-- s32, milli-percent. -/
  curOut : BitVec 32
  /-- s64, in 10^-10 percent. -/
  iAcc : BitVec 64
  /-- s16, T10. -/
  lastIn : BitVec 16
  haveIn : Bool
  /-- s32, T10. -/
  lastErr : BitVec 32
  haveErr : Bool
  /-- s32, milli-percent. -/
  tbhPrev : BitVec 32
  -- the duty-cycle counter (R30)
  duty : BitVec 7
  acc : BitVec 7
  on : Bool
deriving DecidableEq, Repr

/-- A channel after reset (R25 to R30, R65). -/
def Channel.reset (cfg : Config) : Channel :=
  { state := .off, iron := .unknown, userTemp := 0, curTemp := 0, preset := .i0, idleMs := 0,
    tip := tipNone, identCnt := 0, idOhms := 0, fixedDuty := 0, drive := 0, voltSel := 0, led := false,
    presets := ⟨0, 0, 0⟩, setbackTemp := 0, setbackTime := 0, safetyOffTime := 0,
    selectedTip := selectedNone,
    avgA := .empty cfg.avgLen, avgB := .empty cfg.avgLen, avgC := .empty cfg.avgLen,
    rawA := 0, rawB := 0, rawC := 0, presentA := false, presentB := false,
    pwr := .empty cfg.pwrAvgLen,
    k := ⟨0, 0, 0, 0⟩, ctlEn := false, curOut := 0, iAcc := 0, lastIn := 0, haveIn := false,
    lastErr := 0, haveErr := false, tbhPrev := 0,
    duty := 0, acc := 0, on := false }

/-- The pending latches (R62): one deep, one per input, `adc_done` and `cmd_valid` with what was sampled
beside them (R60). -/
structure Pending where
  rst : Bool
  oc : Bool
  zc : Bool
  tmr : Bool
  /-- `adc_tag` and `adc_raw`. -/
  adc : Option (BitVec 8 × BitVec 16)
  /-- `cmd_word`. -/
  cmd : Option StimWord
deriving DecidableEq, Repr

/-- No stimulus pending. -/
def Pending.clear : Pending :=
  { rst := false, oc := false, zc := false, tmr := false, adc := none, cmd := none }

/-- What an internal operation hands to the rule that called it. -/
inductive OpResult where
  /-- Nothing has been handed over. -/
  | none
  /-- A number: a controller output (R134, R138), a temperature (R160, R161), a drive value (R163). -/
  | number (v : Int)
  /-- One bit (R123). -/
  | bit (b : Bool)
  /-- A mux code or tag (R101, R102). -/
  | code (m : MuxCode)
  /-- The two results of MUX.STRIP (R103): the untagged code and the channel. -/
  | parts (m : MuxCode) (c : Chan)
  /-- A measurement sequence (R152). -/
  | codes (l : List MuxCode)
deriving DecidableEq, Repr

/-- The whole machine. `cfg` and `ret` are the model's own fields (logs 1 and 3); every other field is an
element or pin of 10_state.md. -/
structure State where
  /-- The parameters of R8; no operation writes them (R9). -/
  cfg : Config
  -- the Control block (R21)
  ctlEnabled : Bool
  fatal : Bool
  /-- `none` is code 0. -/
  fatalCode : Option FatalCause
  overrun : Bool
  cmdErr : Bool
  /-- `none` is code 0. -/
  cmdCode : Option RejectCode
  resp : BitVec 32
  /-- Output pin (R61, R98). -/
  respOk : Bool
  timerArmed : Bool
  adcBusy : Bool
  refreshCnt : BitVec 16
  reportCnt : BitVec 16
  refreshReq : Bool
  logReq : Bool
  /-- s16, T10. -/
  chipTemp : BitVec 16
  -- the conversion queue (R22) and the sequence pointer (R24)
  q : Vector MuxCode 8
  qLen : BitVec 4
  qIdx : BitVec 4
  -- output pins (R61)
  adcMux : MuxCode
  /-- Pulse pin, 1 for the step that pulses it (log 4). -/
  adcStart : Bool
  /-- Pulse pin, 1 for the step that pulses it (log 4). -/
  tmrArm : Bool
  -- the two channels (R25) and the tip pool (R31)
  ch0 : Channel
  ch1 : Channel
  tips : List TipRecord
  -- inputs (R60, R62)
  pend : Pending
  /-- Input pin `chip_temp_in`, s16 T10. -/
  chipTempIn : BitVec 16
  /-- Input pin `rst`, a level: while it is 1 the machine is held in reset (R60, R310). -/
  rst : Bool
  /-- The model's own: the result of the last internal operation executed by itself (log 3). -/
  ret : OpResult
deriving DecidableEq, Repr

/-- Why the machine stops with a fault: never. R320: "for every state and every stimulus the rules give
exactly one next state"; a fatal trap (R283) is a next state, halted but readable (log 13). -/
inductive Fault where
deriving DecidableEq, Repr

/-- Why the model gives no meaning. -/
inductive Refusal where
  /-- Raised by an arm of `exec` whose instruction has no meaning yet; no arm does. Safe. -/
  | notModelled (mnemonic : String)
  /-- Raised by `step`: the configuration is outside the legal ranges of R8 (R9, I5). Safe. -/
  | illegalConfig
  /-- Raised by EV.ADC: a raw value above `ADC_FS`, which the pins cannot carry (R97, I8). Safe. -/
  | rawBeyondFullScale
  /-- Raised by `runStream`: a stream holds an illegal word (R97, I6). Safe. -/
  | illegalStimulus
  /-- Raised by `runStream`: a stream holds an internal opcode (R97, I6). Safe. -/
  | internalStimulus
deriving DecidableEq, Repr

/-- Every element of R21 to R31, every output pin and every latch at its reset value (R65, R310), under a
configuration and with the platform's level pins as they stand. -/
def State.resetWith (cfg : Config) (chipTempIn : BitVec 16) (rst : Bool) : State :=
  { cfg := cfg
    ctlEnabled := false, fatal := false, fatalCode := none, overrun := false, cmdErr := false,
    cmdCode := none, resp := 0, respOk := true, timerArmed := false, adcBusy := false,
    refreshCnt := 0, reportCnt := 0, refreshReq := false, logReq := false, chipTemp := 0,
    q := #v[0xFF, 0xFF, 0xFF, 0xFF, 0xFF, 0xFF, 0xFF, 0xFF], qLen := 0, qIdx := 0,
    adcMux := 0xFF, adcStart := false, tmrArm := false,
    ch0 := .reset cfg, ch1 := .reset cfg,
    tips := List.replicate cfg.numTipSettings .free,
    pend := .clear, chipTempIn := chipTempIn, rst := rst, ret := .none }

/-- The machine right after reset under the default configuration of R8: the pin `rst` released (log 6).
`chip_temp_in` is an input pin, not state: its 0 here is DESIGN CHOICE, log 2. -/
def State.reset : State := State.resetWith Config.default 0 false

end Sys2Proof.Machine
end

