-- ==== Sys2Proof/Machine/Operands.lean ====
section
/-! DEFINITION. Operand arithmetic: the integer operators of R12, the numeric codes of the enumerations
(R33, R34, R281, R284), the reading of signed registers, and the packing of register words (R50). -/

namespace Sys2Proof.Machine

/-! R12 -/

/-- `a divT b`: the quotient truncated toward zero. -/
def divT (a b : Int) : Int := Int.tdiv a b

/-- `clamp(v, lo, hi)`. -/
def clamp (v lo hi : Int) : Int := if v < lo then lo else if v > hi then hi else v

/-- `sat16(v)`. -/
def sat16 (v : Int) : Int := clamp v (-32768) 32767

/-- `sat64(v)`. -/
def sat64 (v : Int) : Int := clamp v (-9223372036854775808) 9223372036854775807

/-- `satu32(v)`, for the unsigned values that meet it. -/
def satu32 (v : Nat) : Nat := min v 4294967295

/-! Enumeration codes -/

/-- Codes of R33. -/
def ChState.code : ChState → Nat
  | .off => 0
  | .noTool => 1
  | .active => 2
  | .setback => 3
  | .overload => 4
  | .noTip => 5
  | .fixedPower => 6

/-- Codes of R34. -/
def ironCode : Iron → Nat
  | .unknown => 0
  | .t12 => 1
  | .jbc => 2
  | .attenTweezers => 3
  | .weller => 4
  | .dummy => 5

/-- Codes of R281; no trap since reset is 0. -/
def fatalCodeNum : Option FatalCause → Nat
  | none => 0
  | some .tipMismatch => 1
  | some .adcDesync => 2
  | some .measMux => 3

/-- Codes of R284; no rejection is 0. -/
def cmdCodeNum : Option RejectCode → Nat
  | none => 0
  | some .illegal => 1
  | some .addr => 2
  | some .ro => 3
  | some .range => 4
  | some .state => 5
  | some .noTip => 6
  | some .slot => 7
  | some .full => 8
  | some .disabled => 9
  | some .noIron => 10
  | some .halted => 11
  | some .inUse => 12

/-- The state CH.SETST is asked for (R185). -/
def targetState : SetTarget → ChState
  | .off => .off
  | .noTool => .noTool
  | .active => .active
  | .setback => .setback
  | .noTip => .noTip
  | .fixedPower => .fixedPower

/-! Packing of register words (R50 to R52) -/

/-- A bit as a number. -/
def bit (b : Bool) : Nat := if b then 1 else 0

/-- The channel index as a number (R13). -/
def chanNum : Chan → Nat
  | .ch0 => 0
  | .ch1 => 1

/-- `zext`: a narrow value zero-extended into a register word (R50). -/
def zext {n : Nat} (v : BitVec n) : RegWord := v.setWidth 32

/-- `sext`: a signed narrow value sign-extended into a register word (R50, R98). -/
def sext {n : Nat} (v : BitVec n) : RegWord := v.signExtend 32

/-- A command's numeric result as a response word (R98). -/
def natWord (v : Nat) : RegWord := BitVec.ofNat 32 v

/-- A command's signed result as a response word (R98). -/
def intWord (v : Int) : RegWord := BitVec.ofInt 32 v

end Sys2Proof.Machine
end

