-- ==== Sys2Proof/Machine/Flags.lean ====
section
/-! DEFINITION. The flags and derived views: the sets of R18, the views of R35, and the status words of
R51 and R52 they are shown in. -/

namespace Sys2Proof.Machine

/-- `Running = {active, setback, fixedPower}` (R18). -/
def ChState.isRunning : ChState → Bool
  | .active | .setback | .fixedPower => true
  | .off | .noTool | .overload | .noTip => false

/-- `Heating = {active, setback}` (R18). -/
def ChState.isHeating : ChState → Bool
  | .active | .setback => true
  | .off | .noTool | .overload | .noTip | .fixedPower => false

/-- `Known`: every iron type but `Unknown` (R18). -/
def ironKnown : Iron → Bool
  | .unknown => false
  | .t12 | .jbc | .attenTweezers | .weller | .dummy => true

/-- `EffTarget(c)` (R35). -/
def Channel.effTarget (ch : Channel) : BitVec 16 :=
  if ch.state = .setback then
    (if ch.setbackTemp.toNat ≤ ch.userTemp.toNat then ch.setbackTemp else ch.userTemp)
  else ch.userTemp

/-- `TipPresent(c)` (R35). -/
def Channel.tipPresent (ch : Channel) : Bool :=
  match ch.iron with
  | .t12 | .jbc | .weller => ch.presentA
  | .attenTweezers => ch.presentA && ch.presentB
  | .unknown | .dummy => false

/-- `TempModified(c)` (R35). -/
def Channel.tempModified (ch : Channel) : Bool := ch.userTemp != ch.presets.get ch.preset

/-- `IsRunning(c)` (R35). -/
def Channel.isRunning (ch : Channel) : Bool := ch.state.isRunning

/-- `tmr_us`: the constant delay on the pins (R61). -/
def State.tmrUs (s : State) : BitVec 16 := BitVec.ofNat 16 s.cfg.sampleDelayUs

/-- `CTL_STATUS` (R51). -/
def State.ctlStatus (s : State) : RegWord :=
  natWord (bit s.ctlEnabled + bit s.fatal * 2 + fatalCodeNum s.fatalCode * 2 ^ 2 + bit s.overrun * 2 ^ 5
    + bit s.timerArmed * 2 ^ 6 + bit s.adcBusy * 2 ^ 7 + bit s.refreshReq * 2 ^ 8
    + bit s.logReq * 2 ^ 9 + bit s.cmdErr * 2 ^ 10 + cmdCodeNum s.cmdCode * 2 ^ 11)

/-- `SEQ_PTR` (R51). -/
def State.seqPtr (s : State) : RegWord := natWord (s.qIdx.toNat + s.qLen.toNat * 2 ^ 8)

/-- `CH_STATUS` (R52). -/
def Channel.status (ch : Channel) : RegWord :=
  natWord (ch.state.code + ironCode ch.iron * 2 ^ 4 + bit ch.tipPresent * 2 ^ 8 + bit ch.led * 2 ^ 9
    + ch.drive.toNat * 2 ^ 10 + ch.voltSel.toNat * 2 ^ 12 + bit ch.tempModified * 2 ^ 14
    + bit ch.ctlEn * 2 ^ 15 + bit ch.on * 2 ^ 16)

/-- `DUTY` (R52). -/
def Channel.dutyWord (cfg : Config) (ch : Channel) : RegWord :=
  natWord (ch.duty.toNat + ch.acc.toNat * 2 ^ 8 + (cfg.dccUpper.get ch.iron) % 2 ^ 7 * 2 ^ 16)

end Sys2Proof.Machine
end

