-- ==== Sys2Proof/Machine/Ops.lean ====
section
/-! DEFINITION. The named operations over state: channels and tip records (R14, R31), moving averages
(R28), the host response and its rejection (R16, R98, R284), and the fatal trap (R16, R283). The only
way out of a trap is EV.RST (R283): there is no other return. -/

namespace Sys2Proof

/-- The record of a slot the pool does not have. FREE VALUE, log 9. -/
opaque Config.absentTip : Nat → Machine.TipRecord

end Sys2Proof

namespace Sys2Proof.Machine

/-! Channels (R14: `ch[c].name`) -/

/-- `ch[c]`. -/
def State.chan (s : State) : Chan → Channel
  | .ch0 => s.ch0
  | .ch1 => s.ch1

/-- `ch[c] <- x`. -/
def State.setChan (s : State) (c : Chan) (x : Channel) : State :=
  match c with
  | .ch0 => { s with ch0 := x }
  | .ch1 => { s with ch1 := x }

/-- `ch[c]` replaced by a function of itself. -/
def State.updChan (s : State) (c : Chan) (f : Channel → Channel) : State := s.setChan c (f (s.chan c))

/-! The tip pool (R14: `tip[s].name`; R250) -/

/-- `tip[i]` of a pool. -/
def tipAt (tips : List TipRecord) (i : Nat) : TipRecord := (tips[i]?).getD (Config.absentTip i)

/-- `tip[i]`. -/
def State.tip (s : State) (i : Nat) : TipRecord := tipAt s.tips i

/-- `tip[i] <- r`. -/
def State.setTip (s : State) (i : Nat) (r : TipRecord) : State := { s with tips := s.tips.set i r }

/-- A slot is allocated when its name is not `FREE_ENTRY` (R250). -/
def TipRecord.allocated (r : TipRecord) : Bool := r.name != freeEntry

/-- `TIPNAME_IRON[n]` (R251). -/
def tipNameIron (cfg : Config) (n : BitVec 16) : Iron :=
  (cfg.tipNameIron[n.toNat]?).getD (Config.absentNameIron n)

/-- The iron type of an allocated slot: `TIPNAME_IRON[tip[s].name]` (R31, R195). -/
def TipRecord.iron (cfg : Config) (r : TipRecord) : Iron := tipNameIron cfg r.name

/-- The channel's tip reference names the slot (R254). -/
def Channel.usesSlot (ch : Channel) (i : Nat) : Bool := ch.tip != tipNone && ch.tip.toNat == i

/-- Some channel uses the slot (R254, R271). -/
def State.slotInUse (s : State) (i : Nat) : Bool := s.ch0.usesSlot i || s.ch1.usesSlot i

/-- The pool has its one form: exactly `NUM_TIP_SETTINGS` records (R31). -/
def State.poolWf (s : State) : Bool := s.tips.length == s.cfg.numTipSettings

/-! Moving averages (R28) -/

/-- `Push(m, v)`. -/
def MovingAvg.push (m : MovingAvg) (v : BitVec 32) : MovingAvg :=
  let n := m.buf.length
  let full := m.cnt == n
  { buf := m.buf.set m.idx v
    sum := (if full then m.sum - m.buf.getD m.idx 0 else m.sum) + v
    cnt := if full then m.cnt else m.cnt + 1
    idx := (m.idx + 1) % n }

/-- `Avg(m)`. -/
def MovingAvg.avg (m : MovingAvg) : Nat := if m.cnt = 0 then 0 else m.sum.toNat / m.cnt

/-! The conversion queue (R22, R15) -/

/-- `q[i]`. -/
def State.qAt (s : State) (i : Nat) : MuxCode := (s.q.toList[i]?).getD (Config.absentTag i)

/-! Responses (R16, R98, R284) -/

/-- `return v`: the command is accepted; `cmd_err` and `cmd_code` are left alone. -/
def State.accept (s : State) (v : RegWord) : State := { s with resp := v, respOk := true }

/-- `reject(code)`: nothing else changes. -/
def State.reject (s : State) (code : RejectCode) : State :=
  { s with cmdErr := true, cmdCode := some code, resp := 0xFFFFFFFF, respOk := false }

/-- A host command's own rule runs only while the machine is not halted (R283, R284: `E_HALTED` comes
before the command's own checks). -/
def State.hostCommand (s : State) (body : State → State) : State :=
  if s.fatal then s.reject .halted else body s

/-! The fatal trap (R16, R283) -/

/-- `raise Fatal(code)`: latch the trap and force the drives off; nothing already written is undone. -/
def State.raiseFatal (s : State) (code : FatalCause) : State :=
  { s with
    fatal := true
    fatalCode := some code
    ch0 := { s.ch0 with drive := 0 }
    ch1 := { s.ch1 with drive := 0 } }

/-- `raise Fatal(code)` inside a host command, which then ends as rejected with `E_HALTED` (R283). -/
def State.raiseFatalInCommand (s : State) (code : FatalCause) : State :=
  (s.raiseFatal code).reject .halted

/-- How a rule that may trap ends: its state when it ran to the end, or the state the trap left (R16:
`raise` ends the current handler at once). -/
inductive Handled where
  | done (s : State)
  | trapped (s : State)

/-- The state left by a rule, whichever way it ended. -/
def Handled.state : Handled → State
  | .done s => s
  | .trapped s => s

end Sys2Proof.Machine
end

