-- ==== Sys2Proof/Machine/Controller.lean ====
section
/-! DEFINITION. The controllers (41_controller.md R130 to R140): CTL.LOAD, CTL.EN, PID.STEP, TBH.STEP and
`DutyOf`. -/

namespace Sys2Proof.Machine

/-- The factor `10^7` between MP and the units of `i_acc` (R11). -/
def accPerMp : Int := 10000000

/-- `CTL.LOAD(c, s)` (R131): the gains are copied, nothing else changes. -/
def Channel.ctlLoad (r : TipRecord) (ch : Channel) : Channel := { ch with k := r.k }

/-- `CTL.EN(c, b)` (R132): idempotent; enabling presets the integral to the held output. -/
def Channel.ctlEnable (b : Bool) (ch : Channel) : Channel :=
  if b = ch.ctlEn then ch
  else if b then
    { ch with
      ctlEn := true
      iAcc := BitVec.ofInt 64 (ch.curOut.toInt * accPerMp)
      tbhPrev := ch.curOut
      haveIn := false
      haveErr := false }
  else { ch with ctlEn := false }

/-- The integral part of PID.STEP (R134): the new accumulator for an error, with the halved rate at the
output floor, the unconditional negative clamp and the conditional positive clamp. -/
def Channel.pidIntegral (cfg : Config) (err : Int) (ch : Channel) : Int :=
  let ki : Int := ch.k.x1.toNat
  let il : Int := ch.k.x3.toNat
  let prev := ch.curOut.toInt
  let rate := ki * err * cfg.intervalUs
  let inc := if prev ≤ cfg.outMinM then divT rate 2 else rate
  let sum := sat64 (ch.iAcc.toInt + inc)
  let lim := il * accPerMp
  let low := if sum < -lim then -lim else sum
  if prev ≥ cfg.outMaxM ∧ ch.haveErr = true ∧ err > ch.lastErr.toInt ∧ low > lim then lim else low

/-- The differential term of PID.STEP in MP (R133, R134): on the input, zero on the first step. -/
def Channel.pidDiff (cfg : Config) (actual : Int) (ch : Channel) : Int :=
  let kd : Int := ch.k.x2.toNat
  if ch.haveIn then divT (kd * (actual - ch.lastIn.toInt) * 100000) cfg.intervalUs else 0

/-- The output of an enabled PID.STEP, given its integral accumulator (R134). -/
def Channel.pidOutput (cfg : Config) (err actual acc : Int) (ch : Channel) : Int :=
  let kp : Int := ch.k.x0.toNat
  clamp (divT (kp * err) 10 + divT acc accPerMp - ch.pidDiff cfg actual) cfg.outMinM cfg.outMaxM

/-- `PID.STEP(c, target, actual)` (R134): the output and the channel after it. -/
def Channel.pidStep (cfg : Config) (target actual : Int) (ch : Channel) : Int × Channel :=
  if ch.ctlEn = false then (ch.curOut.toInt, ch)
  else
    let err := target - actual
    let acc := ch.pidIntegral cfg err
    let out := ch.pidOutput cfg err actual acc
    (out,
      { ch with
        iAcc := BitVec.ofInt 64 acc
        curOut := BitVec.ofInt 32 out
        lastIn := BitVec.ofInt 16 actual
        haveIn := true
        lastErr := BitVec.ofInt 32 err
        haveErr := true })

/-- The output of an enabled TBH.STEP before the take-back: integrated, damped and clamped (R138). -/
def Channel.tbhDamped (cfg : Config) (err actual : Int) (ch : Channel) : Int :=
  let g : Int := ch.k.x0.toNat
  let b1 : Int := ch.k.x1.toNat
  let b2 : Int := ch.k.x2.toNat
  let dT := if ch.haveIn then actual - ch.lastIn.toInt else 0
  let toward := (err > 0 ∧ dT > 0) ∨ (err < 0 ∧ dT < 0)
  let beta := if toward then b1 else b2
  clamp (ch.curOut.toInt + divT (g * err) 10 - divT (beta * dT) 10) cfg.outMinM cfg.outMaxM

/-- The error changed sign since the previous enabled step (R138): negative against not negative. -/
def Channel.errFlips (err : Int) (ch : Channel) : Bool :=
  ch.haveErr && (decide (err < 0) != decide (ch.lastErr.toInt < 0))

/-- `TBH.STEP(c, target, actual)` (R138): the output and the channel after it. -/
def Channel.tbhStep (cfg : Config) (target actual : Int) (ch : Channel) : Int × Channel :=
  if ch.ctlEn = false then (ch.curOut.toInt, ch)
  else
    let err := target - actual
    let damped := ch.tbhDamped cfg err actual
    let flip := ch.errFlips err
    let out := if flip then divT (damped + ch.tbhPrev.toInt) 2 else damped
    (out,
      { ch with
        tbhPrev := if flip then BitVec.ofInt 32 out else ch.tbhPrev
        curOut := BitVec.ofInt 32 out
        lastIn := BitVec.ofInt 16 actual
        haveIn := true
        lastErr := BitVec.ofInt 32 err
        haveErr := true })

/-- `DutyOf(out)` (R140). -/
def dutyOf (out : Int) : Int := divT (out + 500) 1000

/-- CTL.LOAD (R131). -/
def execCtlLoad (c : Chan) (slot : BitVec 8) (s : State) : Host.Outcome State Fault Refusal :=
  .next (s.updChan c (Channel.ctlLoad (s.tip slot.toNat)))

/-- CTL.EN (R132). -/
def execCtlEn (c : Chan) (b : Bool) (s : State) : Host.Outcome State Fault Refusal :=
  .next (s.updChan c (Channel.ctlEnable b))

/-- PID.STEP (R134): `target` is a u16, `actual` an s16. -/
def execPidStep (c : Chan) (target actual : BitVec 16) (s : State) :
    Host.Outcome State Fault Refusal :=
  let r := (s.chan c).pidStep s.cfg target.toNat actual.toInt
  .next { s.setChan c r.2 with ret := .number r.1 }

/-- TBH.STEP (R138): `target` is a u16, `actual` an s16. -/
def execTbhStep (c : Chan) (target actual : BitVec 16) (s : State) :
    Host.Outcome State Fault Refusal :=
  let r := (s.chan c).tbhStep s.cfg target.toNat actual.toInt
  .next { s.setChan c r.2 with ret := .number r.1 }

end Sys2Proof.Machine
end

