-- ==== Sys2Proof/Machine/DutyCycle.lean ====
section
/-! DEFINITION. The duty-cycle counter (40_dutycycle.md R120 to R124): DCC.SET, DCC.ADV, DCC.ISON. -/

namespace Sys2Proof.Machine

/-- `DCC.SET(c, d)` (R121): the accumulator and the last decision are kept. -/
def Channel.dccSet (cfg : Config) (d : Int) (ch : Channel) : Channel :=
  { ch with duty := BitVec.ofInt 7 (clamp d 0 (cfg.dccUpper.get ch.iron)) }

/-- `DCC.ADV(c)` (R122): one tick. -/
def Channel.dccAdv (ch : Channel) : Channel :=
  let a := ch.acc.toNat + ch.duty.toNat
  if dccResolution ≤ a then { ch with on := true, acc := BitVec.ofNat 7 (a - dccResolution) }
  else { ch with on := false, acc := BitVec.ofNat 7 a }

/-- DCC.SET (R121). -/
def execDccSet (c : Chan) (d : BitVec 32) (s : State) : Host.Outcome State Fault Refusal :=
  .next (s.updChan c (Channel.dccSet s.cfg d.toInt))

/-- DCC.ADV (R122). -/
def execDccAdv (c : Chan) (s : State) : Host.Outcome State Fault Refusal :=
  .next (s.updChan c Channel.dccAdv)

/-- DCC.ISON (R123): the last decision. -/
def execDccIson (c : Chan) (s : State) : Host.Outcome State Fault Refusal :=
  .next { s with ret := .bit (s.chan c).on }

end Sys2Proof.Machine
end

