-- ==== Sys2Proof/Machine/Mux.lean ====
section
/-! DEFINITION. Mux-select codes: composition, tagging and stripping (30_encoding.md R100 to R105), and
the meanings of MUX.MAKE, MUX.TAG and MUX.STRIP. -/

namespace Sys2Proof.Machine

/-- `Make(ch, sub, amp, bias, boost)` (R101), with the bit places of R100. -/
def muxMake (ch sub amp bias boost : Bool) : MuxCode :=
  BitVec.ofNat 8 (bit ch + bit sub * 2 + bit amp * 4 + bit bias * 8 + bit boost * 16)

/-- `Tag(m, c) = m | c` (R102). -/
def muxTag (m : MuxCode) (c : Chan) : MuxCode := m ||| BitVec.ofNat 8 (chanNum c)

/-- `Strip(t) = t & 0xFE` (R103). -/
def muxStrip (t : MuxCode) : MuxCode := t &&& 0xFE#8

/-- `ChanOf(t) = t & 1` (R103). -/
def chanOf (t : MuxCode) : Chan := if t.getLsbD 0 then .ch1 else .ch0

/-- `MUX_END`, the sentinel (R105). -/
def muxEnd : MuxCode := 0xFF#8

/-- `MX_ID` (R104). -/
def mxId : MuxCode := 0x02#8
/-- `MX_TC_A` (R104). -/
def mxTcA : MuxCode := 0x04#8
/-- `MX_TC_B` (R104). -/
def mxTcB : MuxCode := 0x06#8
/-- `MX_PTC_A` (R104). -/
def mxPtcA : MuxCode := 0x08#8
/-- `MX_NTC_B` (R104). -/
def mxNtcB : MuxCode := 0x0A#8

/-- A stored sequence as a list: "Readers stop at the first `0xFF`" (R105). -/
def seqCodes (s : StoredSeq) : List MuxCode :=
  [s.b0, s.b1, s.b2, s.b3].takeWhile fun m => m != muxEnd

/-- MUX.MAKE (R101): pure. -/
def execMuxMake (ch sub amp bias boost : Bool) (s : State) : Host.Outcome State Fault Refusal :=
  .next { s with ret := .code (muxMake ch sub amp bias boost) }

/-- MUX.TAG (R102): pure. -/
def execMuxTag (m : BitVec 8) (c : Chan) (s : State) : Host.Outcome State Fault Refusal :=
  .next { s with ret := .code (muxTag m c) }

/-- MUX.STRIP (R103): pure. -/
def execMuxStrip (t : BitVec 8) (s : State) : Host.Outcome State Fault Refusal :=
  .next { s with ret := .parts (muxStrip t) (chanOf t) }

end Sys2Proof.Machine
end

