-- ==== Sys2Proof/Machine/Measurement.lean ====
section
/-! DEFINITION. The measurement block (42_measurement.md R150 to R164): the per-iron table, the front-end
conversions, sample intake, temperature, controller update and drive. -/

namespace Sys2Proof.Machine

/-- The moving-average slots of a block (R27). -/
inductive Slot where
  | a | b | c
deriving DecidableEq, Repr

/-- `avg[k]`. -/
def Channel.avgOf (ch : Channel) : Slot → MovingAvg
  | .a => ch.avgA
  | .b => ch.avgB
  | .c => ch.avgC

/-! The per-iron table of R151 -/

/-- `LEGS[iron]`: the drive value when the duty-cycle counter says on (R151, R106). -/
def ironLegs : Iron → BitVec 2
  | .unknown => 0b00
  | .t12 => 0b01
  | .jbc => 0b01
  | .attenTweezers => 0b11
  | .weller => 0b01
  | .dummy => 0b00

/-- The slot the table of R151 gives a code without its BOOST flag. -/
def slotOfPlain (iron : Iron) (m : MuxCode) : Option Slot :=
  match iron with
  | .t12 | .jbc => if m = mxTcA then some .a else if m = mxNtcB then some .c else none
  | .attenTweezers =>
    if m = mxTcA then some .a else if m = mxTcB then some .b else if m = mxNtcB then some .c else none
  | .weller => if m = mxPtcA then some .a else none
  | .unknown | .dummy => none

/-- `SlotOf(iron, m)` (R156): the BOOST flag is ignored. -/
def slotOf (iron : Iron) (m : MuxCode) : Option Slot := slotOfPlain iron (m &&& 0xEF#8)

/-- `MEAS.SEQ(c)` (R152): the entries of `SEQ[iron]` before the sentinel. -/
def measSeq (cfg : Config) (ch : Channel) : List MuxCode := seqCodes (cfg.seq.get ch.iron)

/-! Conversions -/

/-- `TcUnits(r)` (R153). -/
def tcUnits (cfg : Config) (r : Nat) : Nat := (cfg.tcTable[r]?).getD r

/-- `PtcUnits(r)` (R153). -/
def ptcUnits (cfg : Config) (r : Nat) : Nat := (cfg.ptcTable[r]?).getD r

/-- `CjTemp(r)` (R153). -/
def cjTemp (cfg : Config) (r : Nat) : Int := (cfg.cjTable[r]?).getD (min r 32767)

/-- One segment of the calibration table (R154): through `(ta, ma)` and `(tb, mb)`, with the
zero-denominator guard. -/
def interpSegment (ta ma tb mb m : Int) : Int :=
  if mb = ma then ta else sat16 (ta + divT ((m - ma) * (tb - ta)) (mb - ma))

/-- `Interp3(s, m)` (R154). -/
def interp3 (r : TipRecord) (m : Int) : Int :=
  let t (i : Idx3) : Int := (r.calT.get i).toNat
  let v (i : Idx3) : Int := (r.calM.get i).toNat
  if m ≤ v .i1 then interpSegment (t .i0) (v .i0) (t .i1) (v .i1) m
  else interpSegment (t .i1) (v .i1) (t .i2) (v .i2) m

/-- `(TcUnits(a) + TcUnits(b)) divT 2`: the mean of the tweezers' two thermocouples (R160, R165). -/
def tcMean (cfg : Config) (a b : Nat) : Int := divT ((tcUnits cfg a : Int) + tcUnits cfg b) 2

/-- The temperature of R160 and R161 from one value per slot. -/
def temperature (cfg : Config) (tips : List TipRecord) (ch : Channel) (a b j : Nat) : Int :=
  if ch.tip = tipNone then 0
  else
    let r := tipAt tips ch.tip.toNat
    match ch.iron with
    | .t12 | .jbc => sat16 (interp3 r (tcUnits cfg a) + cjTemp cfg j)
    | .attenTweezers => sat16 (interp3 r (tcMean cfg a b) + cjTemp cfg j)
    | .weller => interp3 r (ptcUnits cfg a)
    | .unknown | .dummy => 0

/-- `MEAS.TEMP(c)` (R160): on the averages. -/
def Channel.measTemp (cfg : Config) (tips : List TipRecord) (ch : Channel) : Int :=
  temperature cfg tips ch ch.avgA.avg ch.avgB.avg ch.avgC.avg

/-- `MEAS.ITEMP(c)` (R161): on the latest raw samples. -/
def Channel.measItemp (cfg : Config) (tips : List TipRecord) (ch : Channel) : Int :=
  temperature cfg tips ch ch.rawA.toNat ch.rawB.toNat ch.rawC.toNat

/-! The block's operations -/

/-- `MeasReset(c)` (R155): a fresh block; `k`, `last_in` and `last_err` are not written. -/
def Channel.measReset (cfg : Config) (ch : Channel) : Channel :=
  { ch with
    avgA := .empty cfg.avgLen
    avgB := .empty cfg.avgLen
    avgC := .empty cfg.avgLen
    pwr := .empty cfg.pwrAvgLen
    rawA := 0, rawB := 0, rawC := 0
    presentA := false, presentB := false
    ctlEn := false, curOut := 0, iAcc := 0, tbhPrev := 0
    haveIn := false, haveErr := false
    duty := 0, acc := 0, on := false }

/-- The sample intake of R157 for a slot: average, latest raw value and, for A and B, presence. -/
def Channel.takeSample (cfg : Config) (slot : Slot) (raw : BitVec 16) (ch : Channel) : Channel :=
  let v := raw.setWidth 32
  let present := decide (raw.toNat < cfg.tipThreshold)
  match slot with
  | .a => { ch with avgA := ch.avgA.push v, rawA := raw, presentA := present }
  | .b => { ch with avgB := ch.avgB.push v, rawB := raw, presentB := present }
  | .c => { ch with avgC := ch.avgC.push v, rawC := raw }

/-- `MEAS.PROC(c, m, raw)` (R157, R158). -/
def State.measProc (c : Chan) (m : MuxCode) (raw : BitVec 16) (s : State) : Handled :=
  match slotOf (s.chan c).iron m with
  | none => .trapped (s.raiseFatal .measMux)
  | some slot => .done (s.updChan c (Channel.takeSample s.cfg slot raw))

/-- The controller step `CTRL_KIND[iron]` selects (R130, R162). -/
def Channel.ctlStep (cfg : Config) (target actual : Int) (ch : Channel) : Int × Channel :=
  match cfg.ctrlKind.get ch.iron with
  | .pid => ch.pidStep cfg target actual
  | .tbh => ch.tbhStep cfg target actual

/-- `MEAS.UPD(c, target)` (R162): the duty is loaded only while the controller is enabled. -/
def Channel.measUpd (cfg : Config) (tips : List TipRecord) (target : Int) (ch : Channel) : Channel :=
  if ch.iron = .unknown then ch
  else
    let r := ch.ctlStep cfg target (ch.measTemp cfg tips)
    if r.2.ctlEn then r.2.dccSet cfg (dutyOf r.1) else r.2

/-- `PNOM_MW[iron]` (R8). -/
def pnomMw (cfg : Config) (iron : Iron) : BitVec 32 := cfg.pnomMw.get Config.unknownPnom iron

/-- `MEAS.DRIVE(c)` (R163): the legs to energise and the channel after the tick. -/
def Channel.measDrive (cfg : Config) (ch : Channel) : BitVec 2 × Channel :=
  let t := ch.dccAdv
  (if t.on then ironLegs t.iron else 0b00,
    { t with pwr := t.pwr.push (if t.on then pnomMw cfg t.iron else 0) })

/-- MEAS.SEQ (R152). -/
def execMeasSeq (c : Chan) (s : State) : Host.Outcome State Fault Refusal :=
  .next { s with ret := .codes (measSeq s.cfg (s.chan c)) }

/-- MEAS.PROC (R157). -/
def execMeasProc (c : Chan) (m : BitVec 8) (raw : BitVec 16) (s : State) :
    Host.Outcome State Fault Refusal :=
  .next (s.measProc c m raw).state

/-- MEAS.TEMP (R160). -/
def execMeasTemp (c : Chan) (s : State) : Host.Outcome State Fault Refusal :=
  .next { s with ret := .number ((s.chan c).measTemp s.cfg s.tips) }

/-- MEAS.ITEMP (R161). -/
def execMeasItemp (c : Chan) (s : State) : Host.Outcome State Fault Refusal :=
  .next { s with ret := .number ((s.chan c).measItemp s.cfg s.tips) }

/-- MEAS.UPD (R162). -/
def execMeasUpd (c : Chan) (target : BitVec 16) (s : State) : Host.Outcome State Fault Refusal :=
  .next (s.updChan c (Channel.measUpd s.cfg s.tips target.toNat))

/-- MEAS.DRIVE (R163). -/
def execMeasDrive (c : Chan) (s : State) : Host.Outcome State Fault Refusal :=
  let r := (s.chan c).measDrive s.cfg
  .next { s.setChan c r.2 with ret := .number r.1.toNat }

end Sys2Proof.Machine
end

