-- ==== Sys2Proof/Machine/Tips.lean ====
section
/-! DEFINITION. The tip pool (45_tips_host.md R250 to R256): allocation, and the meanings of TIP.ALLOC,
TIP.FREE and TIP.FIND. -/

namespace Sys2Proof.Machine

/-- The lowest slot of a pool whose record satisfies `p`. -/
def lowestSlot (tips : List TipRecord) (p : TipRecord → Bool) : Option Nat := tips.findIdx? p

/-- `DEFAULT_TIP[iron]` (R251). -/
def defaultTip (cfg : Config) (iron : Iron) : BitVec 16 := cfg.defaultTip.get Config.unknownTipName iron

/-- The record of a newly allocated tip name (R252, R253). -/
def defaultRecord (cfg : Config) (n : BitVec 16) : TipRecord :=
  { name := n
    flags := 0
    calT := calTemp
    calM := cfg.defaultCal.get Config.unknownCal (tipNameIron cfg n)
    k := cfg.defaultPid.get (tipNameIron cfg n) }

/-- `AllocTip(n)` (R253): the slot, or `none` for NONE, and the pool after it. -/
def allocTip (cfg : Config) (n : BitVec 16) (tips : List TipRecord) : Option Nat × List TipRecord :=
  match lowestSlot tips fun r => r.name == n with
  | some i => (some i, tips)
  | none =>
    match lowestSlot tips fun r => !r.allocated with
    | none => (none, tips)
    | some i => (some i, tips.set i (defaultRecord cfg n))

/-- TIP.ALLOC (R253). -/
def execTipAlloc (n : BitVec 16) (s : State) : Host.Outcome State Fault Refusal :=
  .next <| s.hostCommand fun s =>
    if s.cfg.numTipNames ≤ n.toNat then s.reject .range
    else
      let r := allocTip s.cfg n s.tips
      match r.1 with
      | none => s.reject .full
      | some i => { s with tips := r.2 }.accept (natWord i)

/-- `selected_tip` as TIP.FREE leaves it: none if it named the freed slot (R254). -/
def Channel.forgetSlot (i : BitVec 16) (ch : Channel) : Channel :=
  if ch.selectedTip = i then { ch with selectedTip := selectedNone } else ch

/-- TIP.FREE (R254). -/
def execTipFree (slot : BitVec 16) (s : State) : Host.Outcome State Fault Refusal :=
  .next <| s.hostCommand fun s =>
    let i := slot.toNat
    if s.cfg.numTipSettings ≤ i ∨ (s.tip i).allocated = false then s.reject .slot
    else if s.slotInUse i then s.reject .inUse
    else
      let s := s.setTip i .free
      { s with ch0 := s.ch0.forgetSlot slot, ch1 := s.ch1.forgetSlot slot }.accept 0

/-- TIP.FIND (R255): "Not found" is an accepted command with result 0xFFFF. -/
def execTipFind (n : BitVec 16) (s : State) : Host.Outcome State Fault Refusal :=
  .next <| s.hostCommand fun s =>
    if s.cfg.numTipNames ≤ n.toNat then s.reject .range
    else s.accept (natWord ((lowestSlot s.tips fun r => r.name == n).getD 0xFFFF))

end Sys2Proof.Machine
end

