-- ==== Sys2Proof/Machine/Channel.lean ====
section
/-! DEFINITION. The channel state machine (43_channel.md R180 to R199): the state-change primitive, user
interaction, tool identification, tip selection, the idle timer, overload and the drive. -/

namespace Sys2Proof.Machine

/-! The state-change primitive -/

/-- `VSEL[iron]` (R8, R107). -/
def vselOf (cfg : Config) (iron : Iron) : BitVec 2 := cfg.vsel.get Config.unknownVsel iron

/-- The exit action of SetState (R185, fail-safe): leaving `Running`, except from a heating state to a
heating state, disables the controller and zeroes duty, decision and drive. -/
def Channel.exitRunning (tgt : SetTarget) (ch : Channel) : Channel :=
  if ch.state.isRunning && !(ch.state.isHeating && (targetState tgt).isHeating) then
    { ch.ctlEnable false with duty := 0, on := false, drive := 0 }
  else ch

/-- The entry action of SetState (R185) for a channel that came from state `old`. -/
def Channel.enterState (cfg : Config) (tgt : SetTarget) (old : ChState) (ch : Channel) : Channel :=
  match tgt with
  | .active =>
    let ch := if old.isHeating then ch else ch.ctlEnable true
    { ch with voltSel := vselOf cfg ch.iron, led := true, idleMs := 0 }
  | .setback => ch
  | .fixedPower =>
    let ch := { ch with voltSel := vselOf cfg ch.iron, led := true }
    { ch.dccSet cfg ch.fixedDuty.toNat with idleMs := 0 }
  | .off | .noTool | .noTip => { ch with voltSel := 0, led := false }

/-- `SetState(c, s)` (R185). -/
def Channel.setState (cfg : Config) (tgt : SetTarget) (ch : Channel) : Channel :=
  if targetState tgt = ch.state then ch
  else
    let old := ch.state
    Channel.enterState cfg tgt old { ch.exitRunning tgt with state := targetState tgt }

/-- `Interact(c)` (R187): "Any user interaction resets the idle timer and, if currently in `setback`,
restores `active`." -/
def Channel.interact (cfg : Config) (ch : Channel) : Channel :=
  let ch := { ch with idleMs := 0 }
  if ch.state = .setback then ch.setState cfg .active else ch

/-- Where a channel that is switched off goes: `off` if its iron is known, else `noTool` (R200, R236). -/
def Channel.offTarget (ch : Channel) : SetTarget := if ironKnown ch.iron then .off else .noTool

/-! Tool identification -/

/-- The E12 base values (R192). -/
def e12Base : List Nat := [10, 12, 15, 18, 22, 27, 33, 39, 47, 56, 68, 82]

/-- The sixty candidates `b * 10^d`, `d` in 0..4, in rising order (R192). -/
def e12Values : List Nat := [1, 10, 100, 1000, 10000].flatMap fun p => e12Base.map fun b => b * p

/-- `|r - v|`. -/
def ohmDist (r v : Nat) : Nat := (r - v) + (v - r)

/-- `E12Round(r)` (R192): the nearest candidate; of two equally near ones the lower. -/
def e12Round (r : Nat) : Nat :=
  e12Values.foldl (fun best v => if ohmDist r v < ohmDist r best then v else best) 10

/-- `IronOf(e)` (R193, `ID_MAP` of R7). -/
def ironOf (e : Nat) : Iron :=
  if e = 2200 then .t12 else if e = 3300 then .jbc else if e = 5600 then .attenTweezers
  else if e = 10000 then .weller else .unknown

/-- The E12-rounded identification resistance of a raw value, 0 for an open input (R191). -/
def idResistance (cfg : Config) (raw : Nat) : Nat :=
  if cfg.adcFs ≤ raw then 0 else e12Round (cfg.idPullupOhms * raw / (cfg.adcFs - raw))

/-- The slot CH.TIPSEL takes without allocating, if there is one (R195): the last tip, else the lowest
allocated slot of the iron's type. -/
def reusableSlot (cfg : Config) (tips : List TipRecord) (iron : Iron) (selected : BitVec 16) :
    Option Nat :=
  let fits (r : TipRecord) : Bool := r.allocated && r.iron cfg == iron
  let st := selected.toNat
  if st < cfg.numTipSettings && fits (tipAt tips st) then some st else lowestSlot tips fits

/-- `CH.TIPSEL(c)` (R195): the channel and the pool after it. -/
def Channel.tipSel (cfg : Config) (tips : List TipRecord) (ch : Channel) : Channel × List TipRecord :=
  let r :=
    match reusableSlot cfg tips ch.iron ch.selectedTip with
    | some i => (some i, tips)
    | none => allocTip cfg (defaultTip cfg ch.iron) tips
  match r.1 with
  | some i => ({ ch with tip := BitVec.ofNat 8 i, selectedTip := BitVec.ofNat 16 i }, r.2)
  | none => ({ ch with tip := tipNone }, r.2)

/-- Part 1 of CH.SETIRON (R194): "always through Unknown". -/
def Channel.dropIron (cfg : Config) (ch : Channel) : Channel :=
  let ch :=
    if ch.state = .overload then { ch with voltSel := 0, led := false } else ch.setState cfg .noTool
  { ch with iron := .unknown, tip := tipNone }.measReset cfg

/-- Part 2 of CH.SETIRON (R194): "select the new measurement", for a type other than `Unknown`. -/
def Channel.takeIron (cfg : Config) (tips : List TipRecord) (t : Iron) (ch : Channel) :
    Channel × List TipRecord :=
  let r := ({ ch with iron := t }.measReset cfg).tipSel cfg tips
  let ch := if r.1.tip = tipNone then r.1 else r.1.ctlLoad (tipAt r.2 r.1.tip.toNat)
  (if ch.state = .noTool then ch.setState cfg .off else ch, r.2)

/-- `CH.SETIRON(c, t)` (R194): the channel and the pool after it. -/
def Channel.setIron (cfg : Config) (tips : List TipRecord) (t : Iron) (ch : Channel) :
    Channel × List TipRecord :=
  if t = ch.iron then
    (if t = .unknown ∧ ch.state = .off then ch.setState cfg .noTool else ch, tips)
  else
    let dropped := if ch.iron = .unknown then ch else ch.dropIron cfg
    if t = .unknown then (dropped, tips) else dropped.takeIron cfg tips t

/-- `CH.IDENT(c, raw)` (R191): the channel and the pool after it. -/
def Channel.ident (cfg : Config) (tips : List TipRecord) (raw : Nat) (ch : Channel) :
    Channel × List TipRecord :=
  let e := idResistance cfg raw
  { ch with idOhms := BitVec.ofNat 32 e }.setIron cfg tips (ironOf e)

/-- A channel and a pool put into the state. -/
def State.putChannel (s : State) (c : Chan) (r : Channel × List TipRecord) : State :=
  { s.setChan c r.1 with tips := r.2 }

/-- `CH.PROC(c, m, raw)` (R189): an identification sample of a running channel is dropped. -/
def State.chProc (c : Chan) (m : MuxCode) (raw : BitVec 16) (s : State) : Handled :=
  if m = mxId then
    if (s.chan c).isRunning then .done s
    else .done (s.putChannel c ((s.chan c).ident s.cfg s.tips raw.toNat))
  else s.measProc c m raw

/-! Idle timer, overload, drive -/

/-- `CH.IDLE(c, ms)` (R197): safety-off is tested first. -/
def Channel.idle (cfg : Config) (ms : Nat) (ch : Channel) : Channel :=
  let t := satu32 (ch.idleMs.toNat + ms)
  let ch := { ch with idleMs := BitVec.ofNat 32 t }
  if ch.state.isRunning = true ∧ ch.safetyOffTime.toNat * 1000 ≤ t then ch.setState cfg .off
  else if ch.state = .active ∧ ch.setbackTime.toNat * 1000 ≤ t then ch.setState cfg .setback
  else ch

/-- `CH.OVERLOAD(c)` (R198): unconditional, not through SetState. -/
def Channel.setOverload (ch : Channel) : Channel :=
  { ch with state := .overload, ctlEn := false, duty := 0, on := false, drive := 0 }

/-- `CH.UPDDRIVE(c)` (R199). -/
def Channel.updDrive (cfg : Config) (ch : Channel) : Channel :=
  if ch.isRunning then
    let r := ch.measDrive cfg
    { r.2 with drive := r.1 }
  else { ch with drive := 0, pwr := ch.pwr.push 0 }

/-! Meanings -/

/-- CH.SETST (R185). -/
def execChSetst (c : Chan) (target : SetTarget) (s : State) : Host.Outcome State Fault Refusal :=
  .next (s.updChan c (Channel.setState s.cfg target))

/-- CH.PROC (R189). -/
def execChProc (c : Chan) (m : BitVec 8) (raw : BitVec 16) (s : State) :
    Host.Outcome State Fault Refusal :=
  .next (s.chProc c m raw).state

/-- CH.IDENT (R191). -/
def execChIdent (c : Chan) (raw : BitVec 16) (s : State) : Host.Outcome State Fault Refusal :=
  .next (s.putChannel c ((s.chan c).ident s.cfg s.tips raw.toNat))

/-- CH.SETIRON (R194). -/
def execChSetiron (c : Chan) (t : Iron) (s : State) : Host.Outcome State Fault Refusal :=
  .next (s.putChannel c ((s.chan c).setIron s.cfg s.tips t))

/-- CH.TIPSEL (R195). -/
def execChTipsel (c : Chan) (s : State) : Host.Outcome State Fault Refusal :=
  .next (s.putChannel c ((s.chan c).tipSel s.cfg s.tips))

/-- CH.IDLE (R197). -/
def execChIdle (c : Chan) (ms : BitVec 32) (s : State) : Host.Outcome State Fault Refusal :=
  .next (s.updChan c (Channel.idle s.cfg ms.toNat))

/-- CH.OVERLOAD (R198). -/
def execChOverload (c : Chan) (s : State) : Host.Outcome State Fault Refusal :=
  .next (s.updChan c Channel.setOverload)

/-- CH.UPDDRIVE (R199). -/
def execChUpddrive (c : Chan) (s : State) : Host.Outcome State Fault Refusal :=
  .next (s.updChan c (Channel.updDrive s.cfg))

end Sys2Proof.Machine
end

