-- ==== Sys2Proof/Machine/Calibration.lean ====
section
/-! DEFINITION. The calibration commands (42_measurement.md R165 to R169). -/

namespace Sys2Proof.Machine

/-- The value CAL.SAVE would store, when the reading is plausible (R165). -/
def Channel.calReading (cfg : Config) (ch : Channel) : Option Nat :=
  let a := ch.avgA.avg
  let b := ch.avgB.avg
  let cj := cjTemp cfg ch.avgC.avg
  let cjOk := decide (calCjMin ≤ cj) && decide (cj ≤ calCjMax)
  let tc (v : Nat) : Option Nat :=
    if decide (calTcMin ≤ v) && decide (v ≤ calTcMax) && cjOk then some v else none
  match ch.iron with
  | .t12 | .jbc => tc (tcUnits cfg a)
  | .attenTweezers => tc (tcMean cfg a b).toNat
  | .weller =>
    let v := ptcUnits cfg a
    if cfg.calRMin ≤ v ∧ v ≤ cfg.calRMax then some v else none
  | .unknown | .dummy => none

/-- A record with one calibration point replaced (R165, R166). -/
def TipRecord.setPoint (r : TipRecord) (i : Idx3) (t : BitVec 16) (m : BitVec 32) : TipRecord :=
  { r with calT := r.calT.set i t, calM := r.calM.set i m }

/-- CAL.SAVE (R165): an implausible reading is an accepted command with result 0. -/
def execCalSave (c : Chan) (i : BitVec 4) (s : State) : Host.Outcome State Fault Refusal :=
  .next <| s.hostCommand fun s =>
    let ch := s.chan c
    match Idx3.ofNum i.toNat with
    | none => s.reject .range
    | some p =>
      if ch.tip = tipNone then s.reject .noTip
      else
        match ch.calReading s.cfg with
        | none => s.accept 0
        | some v =>
          let n := ch.tip.toNat
          (s.setTip n ((s.tip n).setPoint p (calTemp.get p) (natWord v))).accept 1

/-- CAL.SET (R166). -/
def execCalSet (c : Chan) (i : BitVec 4) (t : BitVec 16) (m : BitVec 32) (s : State) :
    Host.Outcome State Fault Refusal :=
  .next <| s.hostCommand fun s =>
    match Idx3.ofNum i.toNat with
    | none => s.reject .range
    | some p =>
      if 32767 < t.toNat ∨ 16777215 < m.toNat then s.reject .range
      else if (s.chan c).tip = tipNone then s.reject .noTip
      else
        let n := (s.chan c).tip.toNat
        (s.setTip n ((s.tip n).setPoint p t m)).accept 0

/-- CAL.GETT (R167). -/
def execCalGett (c : Chan) (i : BitVec 4) (s : State) : Host.Outcome State Fault Refusal :=
  .next <| s.hostCommand fun s =>
    match Idx3.ofNum i.toNat with
    | none => s.reject .range
    | some p =>
      if (s.chan c).tip = tipNone then s.reject .noTip
      else s.accept (zext ((s.tip (s.chan c).tip.toNat).calT.get p))

/-- CAL.GETM (R168). -/
def execCalGetm (c : Chan) (i : BitVec 4) (s : State) : Host.Outcome State Fault Refusal :=
  .next <| s.hostCommand fun s =>
    match Idx3.ofNum i.toNat with
    | none => s.reject .range
    | some p =>
      if (s.chan c).tip = tipNone then s.reject .noTip
      else s.accept ((s.tip (s.chan c).tip.toNat).calM.get p)

/-- CAL.INST (R169). -/
def execCalInst (c : Chan) (s : State) : Host.Outcome State Fault Refusal :=
  .next <| s.hostCommand fun s => s.accept (intWord ((s.chan c).measItemp s.cfg s.tips))

end Sys2Proof.Machine
end

