-- ==== Sys2Proof/Machine/Control.lean ====
section
/-! DEFINITION. The mains-synchronous scheduler (44_control.md R220 to R239): the sequencer, the control
update, the event handlers, reset (70_reset_and_hazards.md R310), the trap as an operation
(60_exceptions.md R283) and the scheduler commands. -/

namespace Sys2Proof.Machine

/-! The sequencer -/

/-- One channel's part of SEQ.BUILD (R224, R190): its untagged codes for this interval, and the channel
with its identification counter moved on. -/
def Channel.buildPart (cfg : Config) (ch : Channel) : List MuxCode × Channel :=
  if ch.isRunning then (measSeq cfg ch, { ch with identCnt := 0 })
  else
    let n := ch.identCnt.toNat + 1
    if cfg.identInterval ≤ n then ([mxId], { ch with identCnt := 0 })
    else (measSeq cfg ch, { ch with identCnt := BitVec.ofNat 8 n })

/-- Eight queue entries from a list of tags, the sentinel behind it (R224). -/
def queueOf (l : List MuxCode) : Vector MuxCode 8 :=
  #v[l.getD 0 muxEnd, l.getD 1 muxEnd, l.getD 2 muxEnd, l.getD 3 muxEnd,
     l.getD 4 muxEnd, l.getD 5 muxEnd, l.getD 6 muxEnd, l.getD 7 muxEnd]

/-- `SEQ.BUILD` (R224): channel 0 first, every code tagged with its channel. -/
def State.seqBuild (s : State) : State :=
  let p0 := s.ch0.buildPart s.cfg
  let p1 := s.ch1.buildPart s.cfg
  let l := (p0.1.map fun m => muxTag m .ch0) ++ (p1.1.map fun m => muxTag m .ch1)
  { s with ch0 := p0.2, ch1 := p1.2, q := queueOf l, qLen := BitVec.ofNat 4 l.length, qIdx := 0 }

/-- `SEQ.NEXT` (R227): the tag driven is the queue entry itself. -/
def State.seqNext (s : State) : State :=
  { s with adcMux := s.qAt s.qIdx.toNat, adcBusy := true, adcStart := true }

/-! The control update -/

/-- One channel's part of CTRL.UPDATE (R228), in the order of the rule. -/
def Channel.update (cfg : Config) (tips : List TipRecord) (ch : Channel) : Channel :=
  let ch := ch.idle cfg cfg.idleTickMs
  let ch := if ch.state.isHeating = true ∧ ch.tipPresent = false then ch.setState cfg .noTip else ch
  let ch := { ch with curTemp := BitVec.ofInt 16 (ch.measTemp cfg tips) }
  let ch := ch.measUpd cfg tips ch.effTarget.toNat
  ch.updDrive cfg

/-- `CTRL.UPDATE` (R228): channel 0 first; the channels do not interact in it. -/
def State.ctrlUpdate (s : State) : State :=
  { s with ch0 := s.ch0.update s.cfg s.tips, ch1 := s.ch1.update s.cfg s.tips }

/-! Event handlers -/

/-- A counter of zero crossings moved on: its new value and whether it raised its request (R221, R231). -/
def tickCounter (interval : Nat) (n : BitVec 16) : BitVec 16 × Bool :=
  let m := n.toNat + 1
  if interval ≤ m then (0, true) else (BitVec.ofNat 16 m, false)

/-- The part of EV.ZC that runs whether or not control is enabled (R221): the drives are cleared first,
the counters count. -/
def State.zcAlways (s : State) : State :=
  let refresh := tickCounter s.cfg.refreshInterval s.refreshCnt
  let report := tickCounter s.cfg.reportInterval s.reportCnt
  { s with
    ch0 := { s.ch0 with drive := 0 }
    ch1 := { s.ch1 with drive := 0 }
    refreshCnt := refresh.1
    refreshReq := s.refreshReq || refresh.2
    reportCnt := report.1
    logReq := s.logReq || report.2 }

/-- The part of EV.ZC that starts an interval (R221): overrun, or the one-shot timer armed. -/
def State.zcArm (s : State) : State :=
  if s.ctlEnabled = false then s
  else if s.timerArmed = true ∨ s.adcBusy = true then { s with overrun := true }
  else { s with timerArmed := true, tmrArm := true }

/-- `EV.ZC` (R221). -/
def State.evZc (s : State) : State := if s.fatal then s else s.zcAlways.zcArm

/-- `EV.TMR` (R222, R223). -/
def State.evTmr (s : State) : State :=
  if s.fatal then s
  else if s.timerArmed = false then s
  else
    let s := { s with timerArmed := false }.seqBuild
    if s.qLen = 0 then s.ctrlUpdate else s.seqNext

/-- The part of EV.ADC after the sample was processed (R226): the next conversion, or the control update
when the queue has drained. -/
def State.adcAdvance (s : State) : State :=
  let n := s.qIdx + 1
  if n.toNat < s.qLen.toNat then { s with qIdx := n }.seqNext
  else { s with qIdx := 0 }.ctrlUpdate

/-- `EV.ADC tag, raw` (R225, R226). -/
def State.evAdc (tag : MuxCode) (raw : BitVec 16) (s : State) : State :=
  if s.fatal then s
  else if s.adcBusy = false ∨ tag ≠ s.qAt s.qIdx.toNat then s.raiseFatal .adcDesync
  else
    match { s with adcBusy := false }.chProc (chanOf tag) (muxStrip tag) raw with
    | .trapped s => s
    | .done s => s.adcAdvance

/-- `EV.OC` (R229). -/
def State.evOc (s : State) : State :=
  if s.fatal then s
  else { s with ch0 := s.ch0.setOverload, ch1 := s.ch1.setOverload, refreshReq := true }

/-- EV.RST (R310): every element, output pin and latch at its reset value. The parameters are constant
(R9) and the input pin `chip_temp_in` is the platform's. -/
def execEvRst (s : State) : Host.Outcome State Fault Refusal :=
  .next (State.resetWith s.cfg s.chipTempIn s.rst)

/-- EV.ZC (R221). -/
def execEvZc (s : State) : Host.Outcome State Fault Refusal := .next s.evZc

/-- EV.TMR (R222). -/
def execEvTmr (s : State) : Host.Outcome State Fault Refusal := .next s.evTmr

/-- EV.ADC (R226): a raw value above `ADC_FS` is refused, the pins cannot carry it (R97). -/
def execEvAdc (tag : BitVec 8) (raw : BitVec 16) (s : State) : Host.Outcome State Fault Refusal :=
  if s.cfg.adcFs < raw.toNat then .refused .rawBeyondFullScale else .next (s.evAdc tag raw)

/-- EV.OC (R229). -/
def execEvOc (s : State) : Host.Outcome State Fault Refusal := .next s.evOc

/-! Internal operations -/

/-- SEQ.BUILD (R224). -/
def execSeqBuild (s : State) : Host.Outcome State Fault Refusal := .next s.seqBuild

/-- SEQ.NEXT (R227). -/
def execSeqNext (s : State) : Host.Outcome State Fault Refusal := .next s.seqNext

/-- CTRL.UPDATE (R228). -/
def execCtrlUpdate (s : State) : Host.Outcome State Fault Refusal := .next s.ctrlUpdate

/-- TRAP.FATAL (R283), raised outside a host command. -/
def execTrapFatal (code : FatalCause) (s : State) : Host.Outcome State Fault Refusal :=
  .next (s.raiseFatal code)

/-! Scheduler commands -/

/-- The body of CTL.DISABLE (R236). -/
def State.disable (s : State) : State :=
  { s with
    ctlEnabled := false
    ch0 := s.ch0.setState s.cfg s.ch0.offTarget
    ch1 := s.ch1.setState s.cfg s.ch1.offTarget }

/-- CTL.ENABLE (R235). -/
def execCtlEnable (s : State) : Host.Outcome State Fault Refusal :=
  .next <| s.hostCommand fun s => { s with ctlEnabled := true }.accept 0

/-- CTL.DISABLE (R236). -/
def execCtlDisable (s : State) : Host.Outcome State Fault Refusal :=
  .next <| s.hostCommand fun s => s.disable.accept 0

/-- CTL.TOGGLE (R237): the result is the new value of `ctl_enabled`. -/
def execCtlToggle (s : State) : Host.Outcome State Fault Refusal :=
  .next <| s.hostCommand fun s =>
    if s.ctlEnabled then s.disable.accept 0 else { s with ctlEnabled := true }.accept 1

/-- CTL.CHIPTEMP (R239). -/
def execCtlChiptemp (s : State) : Host.Outcome State Fault Refusal :=
  .next <| s.hostCommand fun s => { s with chipTemp := s.chipTempIn }.accept (sext s.chipTempIn)

end Sys2Proof.Machine
end

