-- ==== Sys2Proof/Machine/HostChannel.lean ====
section
/-! DEFINITION. The host commands on a channel (43_channel.md R200 to R210). Every one is rejected with
`E_HALTED` while the machine is halted (R283); the checks come in the order the rules list them
(R284). -/

namespace Sys2Proof.Machine

/-- CH.SETSTATE (R200): only `off` (code 0) and `active` (code 2) can be requested. -/
def execChSetstate (c : Chan) (idx : BitVec 4) (s : State) : Host.Outcome State Fault Refusal :=
  .next <| s.hostCommand fun s =>
    let ch := s.chan c
    if idx = 0 then
      (s.setChan c ({ ch with idleMs := 0 }.setState s.cfg ch.offTarget)).accept 0
    else if idx = 2 then
      if s.ctlEnabled = false then s.reject .disabled
      else if ch.iron = .unknown then s.reject .noIron
      else if ch.tip = tipNone then s.reject .noTip
      else if ch.state = .overload ∨ ch.state = .noTip then s.reject .state
      else (s.setChan c ({ ch with idleMs := 0 }.setState s.cfg .active)).accept 0
    else s.reject .range

/-- CH.SETTEMP (R201). -/
def execChSettemp (c : Chan) (t : BitVec 32) (s : State) : Host.Outcome State Fault Refusal :=
  .next <| s.hostCommand fun s =>
    if 32767 < t.toNat then s.reject .range
    else (s.setChan c ({ s.chan c with userTemp := t.setWidth 16 }.interact s.cfg)).accept 0

/-- `(preset + 1) mod 3` (R202). -/
def nextIdx : Idx3 → Idx3
  | .i0 => .i1
  | .i1 => .i2
  | .i2 => .i0

/-- CH.NEXTPRESET (R202). -/
def execChNextpreset (c : Chan) (s : State) : Host.Outcome State Fault Refusal :=
  .next <| s.hostCommand fun s =>
    let ch := s.chan c
    let p := nextIdx ch.preset
    (s.setChan c ({ ch with preset := p, userTemp := ch.presets.get p }.interact s.cfg)).accept
      (natWord p.num)

/-- CH.CHANGETIP (R203): a tip of another type than the known iron's is the fatal trap
`E_TIP_MISMATCH`. -/
def execChChangetip (c : Chan) (slot : BitVec 32) (s : State) : Host.Outcome State Fault Refusal :=
  .next <| s.hostCommand fun s =>
    let ch := s.chan c
    let i := slot.toNat
    let r := s.tip i
    if s.cfg.numTipSettings ≤ i ∨ r.allocated = false then s.reject .slot
    else if ch.iron = .unknown then s.reject .noIron
    else if r.iron s.cfg ≠ ch.iron then s.raiseFatalInCommand .tipMismatch
    else
      let ch := { ch with tip := BitVec.ofNat 8 i, selectedTip := BitVec.ofNat 16 i }.ctlLoad r
      (s.setChan c (ch.interact s.cfg)).accept 0

/-- CH.INTERACT (R204). -/
def execChInteract (c : Chan) (s : State) : Host.Outcome State Fault Refusal :=
  .next <| s.hostCommand fun s => (s.updChan c (Channel.interact s.cfg)).accept 0

/-- CH.FIXEDPWR (R205). -/
def execChFixedpwr (c : Chan) (d : BitVec 32) (s : State) : Host.Outcome State Fault Refusal :=
  .next <| s.hostCommand fun s =>
    let ch := s.chan c
    if 100 < d.toNat then s.reject .range
    else if s.ctlEnabled = false then s.reject .disabled
    else if ch.iron = .unknown then s.reject .noIron
    else if ch.state = .overload ∨ ch.state = .noTip then s.reject .state
    else
      let ch := { ch with fixedDuty := d.setWidth 7, idleMs := 0 }
      let ch := if ch.state = .fixedPower then ch.dccSet s.cfg d.toNat else ch.setState s.cfg .fixedPower
      (s.setChan c ch).accept 0

/-- CH.GETSTATE (R206). -/
def execChGetstate (c : Chan) (s : State) : Host.Outcome State Fault Refusal :=
  .next <| s.hostCommand fun s => s.accept (natWord (s.chan c).state.code)

/-- CH.GETCUR (R207). -/
def execChGetcur (c : Chan) (s : State) : Host.Outcome State Fault Refusal :=
  .next <| s.hostCommand fun s => s.accept (sext (s.chan c).curTemp)

/-- CH.GETTGT (R208). -/
def execChGettgt (c : Chan) (s : State) : Host.Outcome State Fault Refusal :=
  .next <| s.hostCommand fun s => s.accept (zext (s.chan c).effTarget)

/-- CH.GETPWR (R209). -/
def execChGetpwr (c : Chan) (s : State) : Host.Outcome State Fault Refusal :=
  .next <| s.hostCommand fun s => s.accept (natWord (s.chan c).pwr.avg)

/-- CH.ISMOD (R210). -/
def execChIsmod (c : Chan) (s : State) : Host.Outcome State Fault Refusal :=
  .next <| s.hostCommand fun s => s.accept (natWord (bit (s.chan c).tempModified))

end Sys2Proof.Machine
end

