-- ==== Sys2Proof/Machine/Registers.lean ====
section
/-! DEFINITION. The host register file (10_state.md R50 to R54, 20_memory.md R70 to R76): the address map,
the content and the legal values of every register, and the meanings of REG.RD and REG.WR
(45_tips_host.md R270, R271). -/

namespace Sys2Proof.Machine

/-- The registers of a channel (R52). -/
inductive ChReg where
  | status | userTemp | targetTemp | curTemp | idleMs | presetIdx | tipRef | power | duty | ctlOut
  | integralLo | integralHi | avgA | avgB | avgC | idOhms
  | preset (i : Idx3)
  | setbackTemp | setbackTime | safetyOffTime | selectedTip | fixedDuty | identCnt
deriving DecidableEq, Repr

/-- The registers of a tip record (R53). -/
inductive TipReg where
  | name | flags
  | calT (i : Idx3)
  | calM (i : Idx3)
  | gain (j : Idx4)
deriving DecidableEq, Repr

/-- Every populated host address (R51 to R53, R76). -/
inductive Reg where
  | ctlStatus | seqPtr | refreshCnt | reportCnt | chipTemp | irqClear
  | seqQ (i : Nat)
  | chan (c : Chan) (r : ChReg)
  | tip (slot : Nat) (r : TipReg)
deriving DecidableEq, Repr

/-- The channel register at offset `o` from `B(c)` (R52). -/
def chRegAt (o : Nat) : Option ChReg :=
  match o with
  | 0x00 => some .status
  | 0x01 => some .userTemp
  | 0x02 => some .targetTemp
  | 0x03 => some .curTemp
  | 0x04 => some .idleMs
  | 0x05 => some .presetIdx
  | 0x06 => some .tipRef
  | 0x07 => some .power
  | 0x08 => some .duty
  | 0x09 => some .ctlOut
  | 0x0A => some .integralLo
  | 0x0B => some .integralHi
  | 0x0C => some .avgA
  | 0x0D => some .avgB
  | 0x0E => some .avgC
  | 0x0F => some .idOhms
  | 0x10 => some (.preset .i0)
  | 0x11 => some (.preset .i1)
  | 0x12 => some (.preset .i2)
  | 0x13 => some .setbackTemp
  | 0x14 => some .setbackTime
  | 0x15 => some .safetyOffTime
  | 0x16 => some .selectedTip
  | 0x17 => some .fixedDuty
  | 0x18 => some .identCnt
  | _ => none

/-- The tip register at offset `o` from `T(s)` (R53): 0xC to 0xF are not registers. -/
def tipRegAt (o : Nat) : Option TipReg :=
  match o with
  | 0x0 => some .name
  | 0x1 => some .flags
  | 0x2 => some (.calT .i0)
  | 0x3 => some (.calM .i0)
  | 0x4 => some (.calT .i1)
  | 0x5 => some (.calM .i1)
  | 0x6 => some (.calT .i2)
  | 0x7 => some (.calM .i2)
  | 0x8 => some (.gain .j0)
  | 0x9 => some (.gain .j1)
  | 0xA => some (.gain .j2)
  | 0xB => some (.gain .j3)
  | _ => none

/-- The global register at an address below 0x100 (R51). -/
def globalRegAt (a : Nat) : Option Reg :=
  match a with
  | 0x00 => some .ctlStatus
  | 0x01 => some .seqPtr
  | 0x02 => some .refreshCnt
  | 0x03 => some .reportCnt
  | 0x04 => some .chipTemp
  | 0x05 => some .irqClear
  | _ => if 0x10 ≤ a ∧ a < 0x18 then some (.seqQ (a - 0x10)) else none

/-- The register at a word address; `none` is unpopulated (R76). -/
def regAt (cfg : Config) (a : BitVec 16) : Option Reg :=
  let n := a.toNat
  if n < 0x100 then globalRegAt n
  else if n < 0x200 then (chRegAt (n - 0x100)).map (.chan .ch0)
  else if n < 0x300 then (chRegAt (n - 0x200)).map (.chan .ch1)
  else if n < 0x400 then none
  else
    let slot := (n - 0x400) / 0x10
    if slot < cfg.numTipSettings then (tipRegAt ((n - 0x400) % 0x10)).map (.tip slot) else none

/-- Access rights (R54). -/
inductive Access where
  | ro | rw | wo
deriving DecidableEq, Repr

/-- Access column of R52. -/
def ChReg.access : ChReg → Access
  | .preset _ | .setbackTemp | .setbackTime | .safetyOffTime | .selectedTip => .rw
  | .status | .userTemp | .targetTemp | .curTemp | .idleMs | .presetIdx | .tipRef | .power | .duty => .ro
  | .ctlOut | .integralLo | .integralHi | .avgA | .avgB | .avgC | .idOhms | .fixedDuty | .identCnt => .ro

/-- Access column of R51 to R53. -/
def Reg.access : Reg → Access
  | .irqClear => .wo
  | .ctlStatus | .seqPtr | .refreshCnt | .reportCnt | .chipTemp | .seqQ _ => .ro
  | .chan _ r => r.access
  | .tip _ _ => .rw

/-- Content column of R52. -/
def ChReg.read (cfg : Config) (ch : Channel) : ChReg → RegWord
  | .status => ch.status
  | .userTemp => zext ch.userTemp
  | .targetTemp => zext ch.effTarget
  | .curTemp => sext ch.curTemp
  | .idleMs => ch.idleMs
  | .presetIdx => natWord ch.preset.num
  | .tipRef => zext ch.tip
  | .power => natWord ch.pwr.avg
  | .duty => ch.dutyWord cfg
  | .ctlOut => ch.curOut
  | .integralLo => ch.iAcc.extractLsb' 0 32
  | .integralHi => ch.iAcc.extractLsb' 32 32
  | .avgA => natWord ch.avgA.avg
  | .avgB => natWord ch.avgB.avg
  | .avgC => natWord ch.avgC.avg
  | .idOhms => ch.idOhms
  | .preset i => zext (ch.presets.get i)
  | .setbackTemp => zext ch.setbackTemp
  | .setbackTime => zext ch.setbackTime
  | .safetyOffTime => zext ch.safetyOffTime
  | .selectedTip => zext ch.selectedTip
  | .fixedDuty => zext ch.fixedDuty
  | .identCnt => zext ch.identCnt

/-- Content column of R53. -/
def TipReg.read (r : TipRecord) : TipReg → RegWord
  | .name => zext r.name
  | .flags => zext r.flags
  | .calT i => zext (r.calT.get i)
  | .calM i => r.calM.get i
  | .gain j => r.k.get j

/-- `MemRead(a, 1)` (R15): the content of a register. `IRQ_CLEAR` is write-only and has none; REG.RD never
asks for it. -/
def State.regRead (s : State) : Reg → RegWord
  | .ctlStatus => s.ctlStatus
  | .seqPtr => s.seqPtr
  | .refreshCnt => zext s.refreshCnt
  | .reportCnt => zext s.reportCnt
  | .chipTemp => sext s.chipTemp
  | .irqClear => 0
  | .seqQ i => zext (s.qAt i)
  | .chan c r => r.read s.cfg (s.chan c)
  | .tip i r => r.read (s.tip i)

/-- The bits `IRQ_CLEAR` accepts (R51, R271). -/
def irqBits : RegWord := 0x720

/-- Legal values on write (R51 to R53); a read-only register has none. -/
def Reg.legal (cfg : Config) (v : RegWord) : Reg → Bool
  | .irqClear => (v &&& ~~~irqBits) == 0
  | .chan _ (.preset _) | .chan _ .setbackTemp => decide (v.toNat ≤ 32767)
  | .chan _ .setbackTime | .chan _ .safetyOffTime => decide (v.toNat ≤ 65535)
  | .chan _ .selectedTip => decide (v.toNat < cfg.numTipSettings) || v == 0xFFFF
  | .tip _ .name => decide (v.toNat < cfg.numTipNames) || v == 0xFFFF
  | .tip _ .flags => decide (v.toNat ≤ 3)
  | .tip _ (.calT _) => decide (v.toNat ≤ 32767)
  | .tip _ (.calM _) => decide (v.toNat ≤ 16777215)
  | .tip _ (.gain _) => decide (v.toNat ≤ 1000000)
  | .ctlStatus | .seqPtr | .refreshCnt | .reportCnt | .chipTemp | .seqQ _ => false
  | .chan _ .status | .chan _ .userTemp | .chan _ .targetTemp | .chan _ .curTemp => false
  | .chan _ .idleMs | .chan _ .presetIdx | .chan _ .tipRef | .chan _ .power | .chan _ .duty => false
  | .chan _ .ctlOut | .chan _ .integralLo | .chan _ .integralHi | .chan _ .avgA => false
  | .chan _ .avgB | .chan _ .avgC | .chan _ .idOhms | .chan _ .fixedDuty | .chan _ .identCnt => false

/-- `MemWrite(a, 1, v)` on a channel's RW register: the one field named (R271 corner 1). -/
def ChReg.write (v : RegWord) (ch : Channel) : ChReg → Channel
  | .preset i => { ch with presets := ch.presets.set i (v.setWidth 16) }
  | .setbackTemp => { ch with setbackTemp := v.setWidth 16 }
  | .setbackTime => { ch with setbackTime := v.setWidth 16 }
  | .safetyOffTime => { ch with safetyOffTime := v.setWidth 16 }
  | .selectedTip => { ch with selectedTip := v.setWidth 16 }
  | .status | .userTemp | .targetTemp | .curTemp | .idleMs | .presetIdx | .tipRef | .power | .duty => ch
  | .ctlOut | .integralLo | .integralHi | .avgA | .avgB | .avgC | .idOhms | .fixedDuty | .identCnt => ch

/-- `MemWrite(a, 1, v)` on a tip record's register. -/
def TipReg.write (v : RegWord) (r : TipRecord) : TipReg → TipRecord
  | .name => { r with name := v.setWidth 16 }
  | .flags => { r with flags := v.setWidth 2 }
  | .calT i => { r with calT := r.calT.set i (v.setWidth 16) }
  | .calM i => { r with calM := r.calM.set i v }
  | .gain j => { r with k := r.k.set j v }

/-- The write-one-to-clear effect of `IRQ_CLEAR` (R51, R271). -/
def State.irqClear (v : RegWord) (s : State) : State :=
  { s with
    overrun := s.overrun && !v.getLsbD 5
    refreshReq := s.refreshReq && !v.getLsbD 8
    logReq := s.logReq && !v.getLsbD 9
    cmdErr := s.cmdErr && !v.getLsbD 10
    cmdCode := if v.getLsbD 10 then none else s.cmdCode }

/-- The write of a legal value to a writable register; a read-only register keeps its content. -/
def State.regWrite (v : RegWord) (s : State) : Reg → State
  | .irqClear => s.irqClear v
  | .chan c r => s.updChan c fun ch => r.write v ch
  | .tip i r => s.setTip i (r.write v (s.tip i))
  | .ctlStatus | .seqPtr | .refreshCnt | .reportCnt | .chipTemp | .seqQ _ => s

/-- The register is the name of a slot some channel uses (R271). -/
def State.nameInUse (s : State) : Reg → Bool
  | .tip i .name => s.slotInUse i
  | .tip _ .flags | .tip _ (.calT _) | .tip _ (.calM _) | .tip _ (.gain _) => false
  | .ctlStatus | .seqPtr | .refreshCnt | .reportCnt | .chipTemp | .irqClear => false
  | .seqQ _ | .chan _ _ => false

/-- REG.RD (R270): the one host command a halted machine answers (R283); no side effect (R75). -/
def execRegRd (a : BitVec 16) (s : State) : Host.Outcome State Fault Refusal :=
  match regAt s.cfg a with
  | none => .next (s.reject .addr)
  | some r => if r.access = .wo then .next (s.reject .addr) else .next (s.accept (s.regRead r))

/-- REG.WR (R271): rejections `E_HALTED`, `E_ADDR`, `E_RO`, `E_RANGE`, `E_INUSE`, tested in that order. -/
def execRegWr (a : BitVec 16) (v : BitVec 32) (s : State) : Host.Outcome State Fault Refusal :=
  .next <| s.hostCommand fun s =>
    match regAt s.cfg a with
    | none => s.reject .addr
    | some r =>
      if r.access = .ro then s.reject .ro
      else if r.legal s.cfg v = false then s.reject .range
      else if s.nameInUse r then s.reject .inUse
      else (s.regWrite v r).accept 0

end Sys2Proof.Machine
end

