-- ==== Sys2Proof/Machine/Dispatch.lean ====
section
/-! DEFINITION. The meaning of every operation of 30_encoding.md R94: one arm per constructor of `Instr`. -/

namespace Sys2Proof.Machine

def exec (i : Instr) (s : State) : Host.Outcome State Fault Refusal :=
  match i with
  | .evRst => Sys2Proof.Machine.execEvRst s
  | .evZc => Sys2Proof.Machine.execEvZc s
  | .evTmr => Sys2Proof.Machine.execEvTmr s
  | .evAdc tag raw => Sys2Proof.Machine.execEvAdc tag raw s
  | .evOc => Sys2Proof.Machine.execEvOc s
  | .ctlEnable => Sys2Proof.Machine.execCtlEnable s
  | .ctlDisable => Sys2Proof.Machine.execCtlDisable s
  | .ctlToggle => Sys2Proof.Machine.execCtlToggle s
  | .ctlChiptemp => Sys2Proof.Machine.execCtlChiptemp s
  | .chSetstate c idx => Sys2Proof.Machine.execChSetstate c idx s
  | .chSettemp c t => Sys2Proof.Machine.execChSettemp c t s
  | .chNextpreset c => Sys2Proof.Machine.execChNextpreset c s
  | .chChangetip c slot => Sys2Proof.Machine.execChChangetip c slot s
  | .chInteract c => Sys2Proof.Machine.execChInteract c s
  | .chFixedpwr c d => Sys2Proof.Machine.execChFixedpwr c d s
  | .chGetstate c => Sys2Proof.Machine.execChGetstate c s
  | .chGetcur c => Sys2Proof.Machine.execChGetcur c s
  | .chGettgt c => Sys2Proof.Machine.execChGettgt c s
  | .chGetpwr c => Sys2Proof.Machine.execChGetpwr c s
  | .chIsmod c => Sys2Proof.Machine.execChIsmod c s
  | .calSave c idx => Sys2Proof.Machine.execCalSave c idx s
  | .calSet c idx t m => Sys2Proof.Machine.execCalSet c idx t m s
  | .calGett c idx => Sys2Proof.Machine.execCalGett c idx s
  | .calGetm c idx => Sys2Proof.Machine.execCalGetm c idx s
  | .calInst c => Sys2Proof.Machine.execCalInst c s
  | .tipAlloc n => Sys2Proof.Machine.execTipAlloc n s
  | .tipFree slot => Sys2Proof.Machine.execTipFree slot s
  | .tipFind n => Sys2Proof.Machine.execTipFind n s
  | .regRd a => Sys2Proof.Machine.execRegRd a s
  | .regWr a v => Sys2Proof.Machine.execRegWr a v s
  | .dccSet c d => Sys2Proof.Machine.execDccSet c d s
  | .dccAdv c => Sys2Proof.Machine.execDccAdv c s
  | .dccIson c => Sys2Proof.Machine.execDccIson c s
  | .ctlLoad c slot => Sys2Proof.Machine.execCtlLoad c slot s
  | .ctlEn c b => Sys2Proof.Machine.execCtlEn c b s
  | .pidStep c target actual => Sys2Proof.Machine.execPidStep c target actual s
  | .tbhStep c target actual => Sys2Proof.Machine.execTbhStep c target actual s
  | .muxMake ch sub amp bias boost => Sys2Proof.Machine.execMuxMake ch sub amp bias boost s
  | .muxTag m c => Sys2Proof.Machine.execMuxTag m c s
  | .muxStrip t => Sys2Proof.Machine.execMuxStrip t s
  | .measSeq c => Sys2Proof.Machine.execMeasSeq c s
  | .measProc c m raw => Sys2Proof.Machine.execMeasProc c m raw s
  | .measTemp c => Sys2Proof.Machine.execMeasTemp c s
  | .measItemp c => Sys2Proof.Machine.execMeasItemp c s
  | .measUpd c target => Sys2Proof.Machine.execMeasUpd c target s
  | .measDrive c => Sys2Proof.Machine.execMeasDrive c s
  | .chIdent c raw => Sys2Proof.Machine.execChIdent c raw s
  | .chSetiron c t => Sys2Proof.Machine.execChSetiron c t s
  | .chTipsel c => Sys2Proof.Machine.execChTipsel c s
  | .chIdle c ms => Sys2Proof.Machine.execChIdle c ms s
  | .chOverload c => Sys2Proof.Machine.execChOverload c s
  | .chUpddrive c => Sys2Proof.Machine.execChUpddrive c s
  | .chProc c m raw => Sys2Proof.Machine.execChProc c m raw s
  | .chSetst c target => Sys2Proof.Machine.execChSetst c target s
  | .seqBuild => Sys2Proof.Machine.execSeqBuild s
  | .seqNext => Sys2Proof.Machine.execSeqNext s
  | .ctrlUpdate => Sys2Proof.Machine.execCtrlUpdate s
  | .trapFatal code => Sys2Proof.Machine.execTrapFatal code s

end Sys2Proof.Machine
end

