-- ==== Sys2Proof/WellFormed.lean ====
section
/-! DEFINITION. Which operand values an operation's rule admits. Range checks that a rule makes itself
(and answers with a rejection, R93) are no part of this: an instruction that fails here is one no
stimulus and no calling rule presents. -/

namespace Sys2Proof

/-- An untagged mux code: channel bit clear, bits 7:5 clear (R100). -/
def untagged (m : MuxCode) : Bool := (m &&& 0xE1#8) == 0#8

/-- A code or tag that is not the sentinel: bits 7:5 clear (R100). -/
def codeBits (t : MuxCode) : Bool := (t &&& 0xE0#8) == 0#8

/-- The operand ranges the rules state: a raw value is at most `ADC_FS` (R92, R157, R189, R191), a code
to tag or to dispatch is untagged (R102, R157, R189), a tag to strip has bits 7:5 clear (R103),
CH.SETIRON takes "an iron code from `IronOf`" and so never `Dummy` (R193, R194), a slot to load is
in the pool (R131). -/
def WellFormed (cfg : Config) : Instr → Bool
  | .evAdc _ raw => decide (raw.toNat ≤ cfg.adcFs)
  | .ctlLoad _ slot => decide (slot.toNat < cfg.numTipSettings)
  | .muxTag m _ => untagged m
  | .muxStrip t => codeBits t
  | .measProc _ m raw => untagged m && decide (raw.toNat ≤ cfg.adcFs)
  | .chIdent _ raw => decide (raw.toNat ≤ cfg.adcFs)
  | .chSetiron _ t => decide (t ≠ .dummy)
  | .chProc _ m raw => untagged m && decide (raw.toNat ≤ cfg.adcFs)
  | .evRst | .evZc | .evTmr | .evOc => true
  | .ctlEnable | .ctlDisable | .ctlToggle | .ctlChiptemp => true
  | .chSetstate _ _ | .chSettemp _ _ | .chNextpreset _ | .chChangetip _ _ | .chInteract _ => true
  | .chFixedpwr _ _ | .chGetstate _ | .chGetcur _ | .chGettgt _ | .chGetpwr _ | .chIsmod _ => true
  | .calSave _ _ | .calSet _ _ _ _ | .calGett _ _ | .calGetm _ _ | .calInst _ => true
  | .tipAlloc _ | .tipFree _ | .tipFind _ | .regRd _ | .regWr _ _ => true
  | .dccSet _ _ | .dccAdv _ | .dccIson _ | .ctlEn _ _ | .pidStep _ _ _ | .tbhStep _ _ _ => true
  | .muxMake _ _ _ _ _ => true
  | .measSeq _ | .measTemp _ | .measItemp _ | .measUpd _ _ | .measDrive _ => true
  | .chTipsel _ | .chIdle _ _ | .chOverload _ | .chUpddrive _ | .chSetst _ _ => true
  | .seqBuild | .seqNext | .ctrlUpdate | .trapFatal _ => true

end Sys2Proof
end

