-- ==== Sys2Proof/Decode.lean ====
section
/-! DEFINITION. The stimulus word: fields (R91, R95), formats and masks (R92), the opcode table (R94),
the total decoder (R93) and, after it, the encoder (R110). -/

namespace Sys2Proof

/-! The fields of R91, and the operands R95 takes from them. -/

/-- `op = w[63:56]`. -/
def opField (w : StimWord) : BitVec 8 := w.extractLsb' 56 8
/-- `idx = w[51:48]`. -/
def idxField (w : StimWord) : BitVec 4 := w.extractLsb' 48 4
/-- `aux = w[47:32]`. -/
def auxField (w : StimWord) : BitVec 16 := w.extractLsb' 32 16
/-- `arg = w[31:0]`. -/
def argField (w : StimWord) : BitVec 32 := w.extractLsb' 0 32
/-- `c = w[52]`, the low bit of `ch`. -/
def chanField (w : StimWord) : Chan := if w.getLsbD 52 then .ch1 else .ch0
/-- The tag of EV.ADC, `aux[7:0]`. -/
def tagField (w : StimWord) : BitVec 8 := w.extractLsb' 32 8
/-- The raw value of EV.ADC, `arg[15:0]`. -/
def rawField (w : StimWord) : BitVec 16 := w.extractLsb' 0 16

/-- The formats of R92. -/
inductive Format where
  | e0 | ea | h0 | hc | hci | hca | hcixa | hx | hxa | int
deriving DecidableEq, Repr

/-- The mask column of R92: the opcode bits and the must-be-zero bits of a format. -/
def Format.mask : Format → StimWord
  | .e0 => 0xFFFFFFFFFFFFFFFF
  | .ea => 0xFFFFFF00FFFF0000
  | .h0 => 0xFFFFFFFFFFFFFFFF
  | .hc => 0xFFEFFFFFFFFFFFFF
  | .hci => 0xFFE0FFFFFFFFFFFF
  | .hca => 0xFFEFFFFF00000000
  | .hcixa => 0xFFE0000000000000
  | .hx => 0xFFFF0000FFFFFFFF
  | .hxa => 0xFFFF000000000000
  | .int => 0xFF00000000000000

/-- One row of R94: opcode, mnemonic, format, and the operation with its fields. -/
structure Row where
  op : BitVec 8
  mnemonic : String
  format : Format
  build : StimWord → Instr

/-- The match value of a row: its opcode, every other fixed bit zero (R92). -/
def Row.pattern (r : Row) : StimWord := (r.op.setWidth 64) <<< 56

/-- Events of the table of R94. -/
def eventRows : List Row :=
  [ ⟨0x01, "EV.RST", .e0, fun _ => .evRst⟩,
    ⟨0x02, "EV.ZC", .e0, fun _ => .evZc⟩,
    ⟨0x03, "EV.TMR", .e0, fun _ => .evTmr⟩,
    ⟨0x04, "EV.ADC", .ea, fun w => .evAdc (tagField w) (rawField w)⟩,
    ⟨0x05, "EV.OC", .e0, fun _ => .evOc⟩ ]

/-- Host commands of the table of R94. -/
def hostRows : List Row :=
  [ ⟨0x10, "CTL.ENABLE", .h0, fun _ => .ctlEnable⟩,
    ⟨0x11, "CTL.DISABLE", .h0, fun _ => .ctlDisable⟩,
    ⟨0x12, "CTL.TOGGLE", .h0, fun _ => .ctlToggle⟩,
    ⟨0x13, "CTL.CHIPTEMP", .h0, fun _ => .ctlChiptemp⟩,
    ⟨0x20, "CH.SETSTATE", .hci, fun w => .chSetstate (chanField w) (idxField w)⟩,
    ⟨0x21, "CH.SETTEMP", .hca, fun w => .chSettemp (chanField w) (argField w)⟩,
    ⟨0x22, "CH.NEXTPRESET", .hc, fun w => .chNextpreset (chanField w)⟩,
    ⟨0x23, "CH.CHANGETIP", .hca, fun w => .chChangetip (chanField w) (argField w)⟩,
    ⟨0x24, "CH.INTERACT", .hc, fun w => .chInteract (chanField w)⟩,
    ⟨0x25, "CH.FIXEDPWR", .hca, fun w => .chFixedpwr (chanField w) (argField w)⟩,
    ⟨0x26, "CH.GETSTATE", .hc, fun w => .chGetstate (chanField w)⟩,
    ⟨0x27, "CH.GETCUR", .hc, fun w => .chGetcur (chanField w)⟩,
    ⟨0x28, "CH.GETTGT", .hc, fun w => .chGettgt (chanField w)⟩,
    ⟨0x29, "CH.GETPWR", .hc, fun w => .chGetpwr (chanField w)⟩,
    ⟨0x2A, "CH.ISMOD", .hc, fun w => .chIsmod (chanField w)⟩,
    ⟨0x30, "CAL.SAVE", .hci, fun w => .calSave (chanField w) (idxField w)⟩,
    ⟨0x31, "CAL.SET", .hcixa, fun w =>
        .calSet (chanField w) (idxField w) (auxField w) (argField w)⟩,
    ⟨0x32, "CAL.GETT", .hci, fun w => .calGett (chanField w) (idxField w)⟩,
    ⟨0x33, "CAL.GETM", .hci, fun w => .calGetm (chanField w) (idxField w)⟩,
    ⟨0x34, "CAL.INST", .hc, fun w => .calInst (chanField w)⟩,
    ⟨0x40, "TIP.ALLOC", .hx, fun w => .tipAlloc (auxField w)⟩,
    ⟨0x41, "TIP.FREE", .hx, fun w => .tipFree (auxField w)⟩,
    ⟨0x42, "TIP.FIND", .hx, fun w => .tipFind (auxField w)⟩,
    ⟨0x50, "REG.RD", .hx, fun w => .regRd (auxField w)⟩,
    ⟨0x51, "REG.WR", .hxa, fun w => .regWr (auxField w) (argField w)⟩ ]

/-- Internal operations of the table of R94. -/
def internalRows : List Row :=
  [ ⟨0x80, "DCC.SET", .int, fun w => .dccSet (Config.intChan w) (Config.intWord w)⟩,
    ⟨0x81, "DCC.ADV", .int, fun w => .dccAdv (Config.intChan w)⟩,
    ⟨0x82, "DCC.ISON", .int, fun w => .dccIson (Config.intChan w)⟩,
    ⟨0x88, "CTL.LOAD", .int, fun w => .ctlLoad (Config.intChan w) (Config.intByte w)⟩,
    ⟨0x89, "CTL.EN", .int, fun w => .ctlEn (Config.intChan w) (Config.intBit 0 w)⟩,
    ⟨0x8A, "PID.STEP", .int, fun w =>
        .pidStep (Config.intChan w) (Config.intHalf 0 w) (Config.intHalf 1 w)⟩,
    ⟨0x8B, "TBH.STEP", .int, fun w =>
        .tbhStep (Config.intChan w) (Config.intHalf 0 w) (Config.intHalf 1 w)⟩,
    ⟨0x90, "MUX.MAKE", .int, fun w =>
        .muxMake (Config.intBit 0 w) (Config.intBit 1 w) (Config.intBit 2 w) (Config.intBit 3 w)
          (Config.intBit 4 w)⟩,
    ⟨0x91, "MUX.TAG", .int, fun w => .muxTag (Config.intByte w) (Config.intChan w)⟩,
    ⟨0x92, "MUX.STRIP", .int, fun w => .muxStrip (Config.intByte w)⟩,
    ⟨0x98, "MEAS.SEQ", .int, fun w => .measSeq (Config.intChan w)⟩,
    ⟨0x99, "MEAS.PROC", .int, fun w =>
        .measProc (Config.intChan w) (Config.intByte w) (Config.intHalf 0 w)⟩,
    ⟨0x9A, "MEAS.TEMP", .int, fun w => .measTemp (Config.intChan w)⟩,
    ⟨0x9B, "MEAS.ITEMP", .int, fun w => .measItemp (Config.intChan w)⟩,
    ⟨0x9C, "MEAS.UPD", .int, fun w => .measUpd (Config.intChan w) (Config.intHalf 0 w)⟩,
    ⟨0x9D, "MEAS.DRIVE", .int, fun w => .measDrive (Config.intChan w)⟩,
    ⟨0xA0, "CH.IDENT", .int, fun w => .chIdent (Config.intChan w) (Config.intHalf 0 w)⟩,
    ⟨0xA1, "CH.SETIRON", .int, fun w => .chSetiron (Config.intChan w) (Config.intIron w)⟩,
    ⟨0xA2, "CH.TIPSEL", .int, fun w => .chTipsel (Config.intChan w)⟩,
    ⟨0xA3, "CH.IDLE", .int, fun w => .chIdle (Config.intChan w) (Config.intWord w)⟩,
    ⟨0xA4, "CH.OVERLOAD", .int, fun w => .chOverload (Config.intChan w)⟩,
    ⟨0xA5, "CH.UPDDRIVE", .int, fun w => .chUpddrive (Config.intChan w)⟩,
    ⟨0xA6, "CH.PROC", .int, fun w =>
        .chProc (Config.intChan w) (Config.intByte w) (Config.intHalf 0 w)⟩,
    ⟨0xA7, "CH.SETST", .int, fun w => .chSetst (Config.intChan w) (Config.intTarget w)⟩,
    ⟨0xB0, "SEQ.BUILD", .int, fun _ => .seqBuild⟩,
    ⟨0xB1, "SEQ.NEXT", .int, fun _ => .seqNext⟩,
    ⟨0xB2, "CTRL.UPDATE", .int, fun _ => .ctrlUpdate⟩,
    ⟨0xBF, "TRAP.FATAL", .int, fun w => .trapFatal (Config.intCause w)⟩ ]

/-- The 58 rows of R94. -/
def opcodeTable : List Row := eventRows ++ hostRows ++ internalRows

/-- Step 1 and 2 of R93: the row of an opcode. -/
def rowOf (op : BitVec 8) : Option Row := opcodeTable.find? fun r => r.op == op

/-- Why a word is illegal (R93). -/
inductive DecodeError where
  /-- No row of R94 has the opcode. -/
  | reservedOpcode (op : BitVec 8)
  /-- A must-be-zero bit of the row named is set. -/
  | mustBeZero (mnemonic : String)
deriving DecidableEq, Repr

/-- R93, total on any 64-bit word. An INT word encodes no operands (R92): the operation it decodes to
carries free ones (log 8). -/
def decode (w : StimWord) : Except DecodeError Instr :=
  match rowOf (opField w) with
  | none => .error (.reservedOpcode (opField w))
  | some r =>
    if w &&& r.format.mask == r.pattern then .ok (r.build w)
    else .error (.mustBeZero r.mnemonic)

/-- The instruction the decoder reads from the bits `w`, numbered as spec/opcode_table.json numbers
them: the one word of 64 bits, every bit above `nbits` zero. -/
def decodeTableWord (nbits w : Nat) : Option Instr :=
  match decode (BitVec.ofNat 64 (w % 2 ^ nbits)) with
  | .ok i => some i
  | .error _ => none

/-! The encoder (R110): `op<<56 | ch<<52 | idx<<48 | aux<<32 | arg`. -/

/-- The opcode of an operation (R94). -/
def Instr.opcode : Instr → BitVec 8
  | .evRst => 0x01
  | .evZc => 0x02
  | .evTmr => 0x03
  | .evAdc _ _ => 0x04
  | .evOc => 0x05
  | .ctlEnable => 0x10
  | .ctlDisable => 0x11
  | .ctlToggle => 0x12
  | .ctlChiptemp => 0x13
  | .chSetstate _ _ => 0x20
  | .chSettemp _ _ => 0x21
  | .chNextpreset _ => 0x22
  | .chChangetip _ _ => 0x23
  | .chInteract _ => 0x24
  | .chFixedpwr _ _ => 0x25
  | .chGetstate _ => 0x26
  | .chGetcur _ => 0x27
  | .chGettgt _ => 0x28
  | .chGetpwr _ => 0x29
  | .chIsmod _ => 0x2A
  | .calSave _ _ => 0x30
  | .calSet _ _ _ _ => 0x31
  | .calGett _ _ => 0x32
  | .calGetm _ _ => 0x33
  | .calInst _ => 0x34
  | .tipAlloc _ => 0x40
  | .tipFree _ => 0x41
  | .tipFind _ => 0x42
  | .regRd _ => 0x50
  | .regWr _ _ => 0x51
  | .dccSet _ _ => 0x80
  | .dccAdv _ => 0x81
  | .dccIson _ => 0x82
  | .ctlLoad _ _ => 0x88
  | .ctlEn _ _ => 0x89
  | .pidStep _ _ _ => 0x8A
  | .tbhStep _ _ _ => 0x8B
  | .muxMake _ _ _ _ _ => 0x90
  | .muxTag _ _ => 0x91
  | .muxStrip _ => 0x92
  | .measSeq _ => 0x98
  | .measProc _ _ _ => 0x99
  | .measTemp _ => 0x9A
  | .measItemp _ => 0x9B
  | .measUpd _ _ => 0x9C
  | .measDrive _ => 0x9D
  | .chIdent _ _ => 0xA0
  | .chSetiron _ _ => 0xA1
  | .chTipsel _ => 0xA2
  | .chIdle _ _ => 0xA3
  | .chOverload _ => 0xA4
  | .chUpddrive _ => 0xA5
  | .chProc _ _ _ => 0xA6
  | .chSetst _ _ => 0xA7
  | .seqBuild => 0xB0
  | .seqNext => 0xB1
  | .ctrlUpdate => 0xB2
  | .trapFatal _ => 0xBF

/-- The `ch` field of a channel (R95). -/
def Chan.field : Chan → BitVec 4
  | .ch0 => 0
  | .ch1 => 1

/-- The four fields below the opcode. -/
structure Fields where
  ch : BitVec 4 := 0
  idx : BitVec 4 := 0
  aux : BitVec 16 := 0
  arg : BitVec 32 := 0
deriving DecidableEq, Repr

/-- The fields an operation's format uses (R92, R95); the others are zero. -/
def Instr.fields : Instr → Fields
  | .evAdc tag raw => { aux := tag.setWidth 16, arg := raw.setWidth 32 }
  | .chSetstate c i | .calSave c i | .calGett c i | .calGetm c i => { ch := c.field, idx := i }
  | .chSettemp c a | .chChangetip c a | .chFixedpwr c a => { ch := c.field, arg := a }
  | .chNextpreset c | .chInteract c | .chGetstate c | .chGetcur c | .chGettgt c => { ch := c.field }
  | .chGetpwr c | .chIsmod c | .calInst c => { ch := c.field }
  | .calSet c i t m => { ch := c.field, idx := i, aux := t, arg := m }
  | .tipAlloc x | .tipFree x | .tipFind x | .regRd x => { aux := x }
  | .regWr a v => { aux := a, arg := v }
  | .evRst | .evZc | .evTmr | .evOc | .ctlEnable | .ctlDisable => { }
  | .ctlToggle | .ctlChiptemp | .dccSet _ _ | .dccAdv _ | .dccIson _ | .ctlLoad _ _ => { }
  | .ctlEn _ _ | .pidStep _ _ _ | .tbhStep _ _ _ | .muxMake _ _ _ _ _ | .muxTag _ _ | .muxStrip _ => { }
  | .measSeq _ | .measProc _ _ _ | .measTemp _ | .measItemp _ | .measUpd _ _ | .measDrive _ => { }
  | .chIdent _ _ | .chSetiron _ _ | .chTipsel _ | .chIdle _ _ | .chOverload _ | .chUpddrive _ => { }
  | .chProc _ _ _ | .chSetst _ _ | .seqBuild | .seqNext | .ctrlUpdate | .trapFatal _ => { }

/-- The word with the given fields (R91, R110). -/
def assembleWord (op : BitVec 8) (f : Fields) : StimWord :=
  (op ++ f.ch ++ f.idx ++ f.aux ++ f.arg : BitVec 64)

/-- The word of an operation; an internal operation's word holds its opcode alone (R92, R110). -/
def encode (i : Instr) : StimWord := assembleWord i.opcode i.fields

/-- Operations that arrive on pins, opcodes 0x01..0x05 (R94, R96 b). -/
def Instr.isEvent (i : Instr) : Bool := decide (i.opcode.toNat < 0x10)
/-- Host commands, opcodes 0x10..0x51 (R94). -/
def Instr.isHost (i : Instr) : Bool :=
  decide (0x10 ≤ i.opcode.toNat) && decide (i.opcode.toNat < 0x80)
/-- Internal operations, opcodes 0x80..0xBF, never issued from outside (R96 c). -/
def Instr.isInternal (i : Instr) : Bool := decide (0x80 ≤ i.opcode.toNat)
/-- Operations that can be presented from outside: everything but the internal ones (R90). -/
def Instr.issuable (i : Instr) : Bool := i.isEvent || i.isHost

end Sys2Proof
end

