-- ==== Sys2Proof/Machine/Fetch.lean ====
section
/-! DEFINITION. Where the next step comes from: the pending latches (10_state.md R62), their order
(60_exceptions.md R286), the operation a stimulus asks for (30_encoding.md R93, R96), and the latch an
event-stream word stands for (R90, R97). -/

namespace Sys2Proof.Machine

/-- One stimulus: an event of R285 or a word on the command port. -/
inductive Stimulus where
  | rst | oc | zc | tmr
  | adc (tag : BitVec 8) (raw : BitVec 16)
  | cmd (w : StimWord)
deriving DecidableEq, Repr

/-- The pending stimulus that is taken next (R286): `rst`, then EV.OC, EV.ZC, EV.TMR, EV.ADC, then the
host command. -/
def Pending.first (p : Pending) : Option Stimulus :=
  if p.rst then some .rst
  else if p.oc then some .oc
  else if p.zc then some .zc
  else if p.tmr then some .tmr
  else
    match p.adc with
    | some x => some (.adc x.1 x.2)
    | none => p.cmd.map .cmd

/-- The stimulus the next step takes: while the pin `rst` is 1 the machine is held in reset and takes no
other (R60, R310). -/
def State.nextStimulus (s : State) : Option Stimulus := if s.rst then some .rst else s.pend.first

/-- The latches after a stimulus's step is taken (R62: its latch is cleared). -/
def Pending.take (p : Pending) : Stimulus → Pending
  | .rst => { p with rst := false }
  | .oc => { p with oc := false }
  | .zc => { p with zc := false }
  | .tmr => { p with tmr := false }
  | .adc _ _ => { p with adc := none }
  | .cmd _ => { p with cmd := none }

/-- The pulse pins `adc_start` and `tmr_arm` back at 0: a pulse lasts one step (log 4). -/
def State.dropPulses (s : State) : State := { s with adcStart := false, tmrArm := false }

/-- The state a stimulus's handler starts from: its latch cleared, the pulse pins at 0. -/
def State.beginStep (s : State) (st : Stimulus) : State :=
  { s.dropPulses with pend := s.pend.take st }

/-- What the command port does with a word (R96): the host command it decodes to, or nothing for an
illegal word, an event opcode and an internal opcode. -/
def commandInstr (w : StimWord) : Option Instr :=
  match decode w with
  | .ok i => if i.isHost then some i else none
  | .error _ => none

/-- The operation a stimulus asks for. -/
def Stimulus.instr : Stimulus → Option Instr
  | .rst => some .evRst
  | .oc => some .evOc
  | .zc => some .evZc
  | .tmr => some .evTmr
  | .adc tag raw => some (.evAdc tag raw)
  | .cmd w => commandInstr w

/-- The answer to a word on the command port that is no host command (R96): rejected with `E_ILLEGAL`,
before the check of `E_HALTED` (R284). -/
def State.rejectIllegal (s : State) : State := s.reject .illegal

/-- The latches when the one word is what happened next (R90): an event word is its pin event, every
other word stands on the command port. -/
def wordPending (w : StimWord) : Pending :=
  match decode w with
  | .ok .evRst => { Pending.clear with rst := true }
  | .ok .evOc => { Pending.clear with oc := true }
  | .ok .evZc => { Pending.clear with zc := true }
  | .ok .evTmr => { Pending.clear with tmr := true }
  | .ok (.evAdc tag raw) => { Pending.clear with adc := some (tag, raw) }
  | _ => { Pending.clear with cmd := some w }

/-- The one word is what happens next (R90): its latch alone is set, and the pin `rst` is released ("In
hardware it is the release of the `rst` pin; the word form is for event streams", R310). -/
def State.present (w : StimWord) (s : State) : State := { s with pend := wordPending w, rst := false }

end Sys2Proof.Machine
end

