-- ==== Sys2Proof/Machine/Legal.lean ====
section
/-! DEFINITION. Which configurations are legal: the ranges of 00_scope.md R8 and the conditions of R9, R105,
R153, R156, R251 (93_implementation_defined.md I5). -/

namespace Sys2Proof.Machine

/-- The known irons (R18). -/
def knownIrons : List Iron := [.t12, .jbc, .attenTweezers, .weller, .dummy]

/-- The six iron codes (R34). -/
def allIrons : List Iron := .unknown :: knownIrons

/-- A stored sequence of an iron: up to three untagged codes, each with a slot under that iron (R156), and
the sentinel in every byte behind them (R105). -/
def seqLegal (iron : Iron) (s : StoredSeq) : Bool :=
  (s.b0 != muxEnd || s.b1 == muxEnd) && (s.b1 != muxEnd || s.b2 == muxEnd) && s.b3 == muxEnd
    && (seqCodes s).all fun m => untagged m && (slotOf iron m).isSome

/-- The scalar ranges of R8. -/
def scalarsLegal (cfg : Config) : Bool :=
  [ decide (8 ≤ cfg.adcBits ∧ cfg.adcBits ≤ 16),
    decide (cfg.tipThreshold ≤ cfg.adcFs),
    decide (1 ≤ cfg.avgLen ∧ cfg.avgLen ≤ 64),
    decide (1 ≤ cfg.pwrAvgLen ∧ cfg.pwrAvgLen ≤ 256),
    decide (cfg.outMinM < cfg.outMaxM ∧ cfg.outMaxM ≤ 100000),
    decide (1 ≤ cfg.intervalUs ∧ cfg.intervalUs ≤ 1000000),
    decide (1 ≤ cfg.idleTickMs ∧ cfg.idleTickMs ≤ 1000),
    decide (1 ≤ cfg.sampleDelayUs ∧ cfg.sampleDelayUs ≤ 65535),
    decide (1 ≤ cfg.identInterval ∧ cfg.identInterval ≤ 255),
    decide (1 ≤ cfg.idPullupOhms ∧ cfg.idPullupOhms ≤ 1000000),
    decide (1 ≤ cfg.refreshInterval ∧ cfg.refreshInterval ≤ 65535),
    decide (1 ≤ cfg.reportInterval ∧ cfg.reportInterval ≤ 65535),
    decide (1 ≤ cfg.numTipSettings ∧ cfg.numTipSettings ≤ 64),
    decide (1 ≤ cfg.numTipNames ∧ cfg.numTipNames ≤ 65535),
    decide (cfg.calRMin ≤ 16777215 ∧ cfg.calRMax ≤ 16777215) ].all id

/-- The tip-name table and the default tips (R251): one iron type per name, and
`TIPNAME_IRON[DEFAULT_TIP[i]] = i` for every known iron. -/
def tipTablesLegal (cfg : Config) : Bool :=
  cfg.tipNameIron.length == cfg.numTipNames
    && knownIrons.all fun i =>
      decide ((defaultTip cfg i).toNat < cfg.numTipNames) && tipNameIron cfg (defaultTip cfg i) == i

/-- The default records hold values their registers could hold (R31, R53, R252): the calibration of every
known iron, the gains of every iron. -/
def defaultsLegal (cfg : Config) : Bool :=
  (knownIrons.all fun i =>
      let m := cfg.defaultCal.get Config.unknownCal i
      [m.x0, m.x1, m.x2].all fun v => decide (v.toNat ≤ 16777215))
    && allIrons.all fun i =>
      let k := cfg.defaultPid.get i
      [k.x0, k.x1, k.x2, k.x3].all fun v => decide (v.toNat ≤ 1000000)

/-- The per-iron parameters of R8. -/
def ironsLegal (cfg : Config) : Bool :=
  (allIrons.all fun i => decide (cfg.dccUpper.get i ≤ 100) && seqLegal i (cfg.seq.get i))
    && knownIrons.all fun i =>
      vselOf cfg i != 0 && decide ((pnomMw cfg i).toNat ≤ 2 ^ 20)

/-- The result ranges of the conversion functions (R153). -/
def tablesLegal (cfg : Config) : Bool :=
  cfg.tcTable.all (fun v => decide (v ≤ 16777215)) && cfg.ptcTable.all (fun v => decide (v ≤ 16777215))
    && cfg.cjTable.all fun v => decide (-32768 ≤ v ∧ v ≤ 32767)

/-- A configuration inside every legal range (R8, R9). -/
def configLegal (cfg : Config) : Bool :=
  scalarsLegal cfg && tipTablesLegal cfg && defaultsLegal cfg && ironsLegal cfg && tablesLegal cfg

end Sys2Proof.Machine
end

