-- ==== Sys2Proof/Machine/Step.lean ====
section
/-! DEFINITION. One step (00_scope.md R6): the first pending stimulus in the order of R286 is taken as one
whole handler. -/

namespace Sys2Proof.Machine

/-- One step. A configuration outside the legal ranges is refused (R9); while the pin `rst` is held the step is
EV.RST (R310); with nothing pending the machine waits (R288, log 5); a word on the command port that is no host
command is rejected (R96). -/
def step (s : State) : Host.Outcome State Fault Refusal :=
  if configLegal s.cfg then
    match s.nextStimulus with
    | none => .next s.dropPulses
    | some st =>
      match st.instr with
      | some i => exec i (s.beginStep st)
      | none => .next (s.beginStep st).rejectIllegal
  else .refused .illegalConfig

/-- The machine with the one stimulus word given as what happens next, its bits above `nbits` zero. The
latches of every other stimulus are clear and `rst` is released, so the next step takes this one. -/
def State.withFetchWord (s : State) (nbits w : Nat) : State :=
  s.present (BitVec.ofNat 64 (w % 2 ^ nbits))

end Sys2Proof.Machine
end

