-- ==== Sys2Proof/Machine/Pins.lean ====
section
/-! DEFINITION. The pins. What the outside world does to the machine: the two level pins and a pulse on each
other input pin of 10_state.md R60, with the one-deep latches and the merging of R62, and the platform's
protocol of R63; these act between steps. And what the outside world sees: the output pins of R61, at their
reset values while `rst` is held (70_reset_and_hazards.md R310). -/

namespace Sys2Proof.Machine

/-- The platform drives the level of `rst` (R60). Raising it puts every element, output pin and latch at its
reset value at once; releasing it leaves the machine as EV.RST completed ("release is `EV.RST` completed"). -/
def State.setRst (v : Bool) (s : State) : State :=
  if v then State.resetWith s.cfg s.chipTempIn true else { s with rst := false }

/-- A pulse sets its latch (R62), but while `rst` is held it is lost: "no stimulus is taken" (R310). -/
def State.latch (f : Pending → Pending) (s : State) : State :=
  if s.rst then s else { s with pend := f s.pend }

/-- A pulse on `oc`; a second one before the first is taken merges with it (R62). -/
def State.pulseOc (s : State) : State := s.latch fun p => { p with oc := true }
/-- A pulse on `zc` (R62). -/
def State.pulseZc (s : State) : State := s.latch fun p => { p with zc := true }
/-- A pulse on `tmr_fire` (R62). -/
def State.pulseTmr (s : State) : State := s.latch fun p => { p with tmr := true }

/-- A pulse on `adc_done` with `adc_tag` and `adc_raw` sampled (R60); which payload a merged pulse carries
is free (log 7). -/
def State.pulseAdc (tag : BitVec 8) (raw : BitVec 16) (s : State) : State :=
  s.latch fun p =>
    let v :=
      match p.adc with
      | none => (tag, raw)
      | some old => Config.mergedAdc old (tag, raw)
    { p with adc := some v }

/-- A pulse on `cmd_valid` with `cmd_word` (R60); which word a merged pulse carries is free (log 7). -/
def State.presentCommand (w : StimWord) (s : State) : State :=
  s.latch fun p =>
    let v :=
      match p.cmd with
      | none => w
      | some old => Config.mergedCmd old w
    { p with cmd := some v }

/-- The platform drives `chip_temp_in` (R60, R239). -/
def State.setChipTempIn (v : BitVec 16) (s : State) : State := { s with chipTempIn := v }

/-- The output pins of one channel (R61). -/
structure ChannelPins where
  drive : BitVec 2
  voltSel : BitVec 2
  led : Bool
deriving DecidableEq, Repr

/-- The output pins (R61). -/
structure OutputPins where
  adcStart : Bool
  adcMux : MuxCode
  tmrArm : Bool
  tmrUs : BitVec 16
  ch0 : ChannelPins
  ch1 : ChannelPins
  refreshReq : Bool
  logReq : Bool
  fatal : Bool
  resp : BitVec 32
  respOk : Bool
deriving DecidableEq, Repr

/-- The channel's pins hold its last written values (R61). -/
def Channel.pins (ch : Channel) : ChannelPins :=
  { drive := ch.drive, voltSel := ch.voltSel, led := ch.led }

/-- The pins hold their last written values (R61). -/
def State.writtenPins (s : State) : OutputPins :=
  { adcStart := s.adcStart, adcMux := s.adcMux, tmrArm := s.tmrArm, tmrUs := s.tmrUs
    ch0 := s.ch0.pins, ch1 := s.ch1.pins, refreshReq := s.refreshReq, logReq := s.logReq
    fatal := s.fatal, resp := s.resp, respOk := s.respOk }

/-- What the outside world sees between two steps (during a step: `State.pinHistory` in PinOrder.lean):
"While `rst` is held ... all outputs show their reset values" (R310). -/
def State.outputPins (s : State) : OutputPins :=
  if s.rst then (State.resetWith s.cfg s.chipTempIn s.rst).writtenPins else s.writtenPins

/-- The protocol of R63 for what is pending: a timer pulse answers an armed timer, a completion answers the
conversion in flight with its own tag. The machine does not rely on it (R225, R223). -/
def State.platformObeys (s : State) : Bool :=
  (!s.pend.tmr || s.timerArmed)
    && (match s.pend.adc with
        | none => true
        | some x => s.adcBusy && x.1 == s.qAt s.qIdx.toNat)

end Sys2Proof.Machine
end

