-- ==== Sys2Proof/Machine/Stream.lean ====
section
/-! DEFINITION. Event streams (30_encoding.md R97): a list of stimulus words, each of them what happened
next. -/

namespace Sys2Proof.Machine

/-- Why a stream with this word is refused, if it is (R97): an illegal word, or an internal opcode. -/
def streamRefusal (w : StimWord) : Option Refusal :=
  match decode w with
  | .error _ => some .illegalStimulus
  | .ok i => if i.isInternal then some .internalStimulus else none

/-- The words of an accepted stream, one step each. -/
def runWords : List StimWord → State → Host.Outcome State Fault Refusal
  | [], s => .next s
  | w :: ws, s =>
    match step (s.present w) with
    | .next t => runWords ws t
    | .fault r => .fault r
    | .refused r => .refused r

/-- A whole stream (R97): one that holds an illegal or internal word is given no meaning at all. -/
def runStream (ws : List StimWord) (s : State) : Host.Outcome State Fault Refusal :=
  match ws.findSome? streamRefusal with
  | some r => .refused r
  | none => runWords ws s

end Sys2Proof.Machine
end

