-- ==== Sys2Proof/Safety.lean ====
section
/-! DEFINITION. What counts as a safe run, in the terms the statements use: the invariants the spec states
of the queue (10_state.md R22 to R24), of a channel (R30, 43_channel.md R180, 45_tips_host.md R254), of the
tip pool (R31), of the moving averages (R28) and of a halted machine (60_exceptions.md R283), and the
transitions of 43_channel.md R181. -/

namespace Sys2Proof.Machine

/-! The scheduler -/

/-- R23 and R24: the sequence pointer inside the queue, a conversion in flight only inside it, no armed
timer while a conversion is in flight, the sentinel behind the valid entries, and the pointer at 0 while
nothing is in flight (unless a trap froze it, R226 corner 4). -/
def SchedulerInv (s : State) : Prop :=
  s.qIdx.toNat ≤ s.qLen.toNat ∧ s.qLen.toNat ≤ 8
    ∧ (s.adcBusy = true → s.qIdx.toNat < s.qLen.toNat)
    ∧ (s.timerArmed = true → s.adcBusy = false)
    ∧ (∀ i, s.qLen.toNat ≤ i → i < 8 → s.qAt i = muxEnd)
    ∧ (s.adcBusy = false → s.fatal = false → s.qIdx = 0)

/-- The zero-crossing counters stay below their intervals (R231, R291). -/
def CountersInv (s : State) : Prop :=
  s.refreshCnt.toNat < s.cfg.refreshInterval ∧ s.reportCnt.toNat < s.cfg.reportInterval

/-- R158: while a conversion is in flight, every entry still to be completed is either its channel's one
remaining entry, an identification, or a code the channel's current iron has a slot for. -/
def DispatchInv (s : State) : Prop :=
  s.adcBusy = true →
    ∀ i, s.qIdx.toNat ≤ i → i < s.qLen.toNat →
      (muxStrip (s.qAt i) = mxId
          ∧ ∀ j, i < j → j < s.qLen.toNat → chanOf (s.qAt j) ≠ chanOf (s.qAt i))
        ∨ (muxStrip (s.qAt i) ≠ mxId
          ∧ (slotOf (s.chan (chanOf (s.qAt i))).iron (muxStrip (s.qAt i))).isSome = true)

/-! The tip pool -/

/-- The ranges of a record's fields (R31, R53). -/
def RecordOk (cfg : Config) (r : TipRecord) : Prop :=
  (r.name = freeEntry ∨ r.name.toNat < cfg.numTipNames)
    ∧ (∀ i, (r.calT.get i).toNat ≤ 32767) ∧ (∀ i, (r.calM.get i).toNat ≤ 16777215)
    ∧ (∀ j, (r.k.get j).toNat ≤ 1000000)

/-- The pool has exactly `NUM_TIP_SETTINGS` records, each with its fields in range (R31). -/
def PoolInv (s : State) : Prop := s.poolWf = true ∧ ∀ r ∈ s.tips, RecordOk s.cfg r

/-! A channel -/

/-- The duty-cycle counter (R30): `0 ≤ acc < 100`, `0 ≤ duty ≤ DCC_UPPER[iron]`. -/
def DutyInv (cfg : Config) (ch : Channel) : Prop :=
  ch.acc.toNat < dccResolution ∧ ch.duty.toNat ≤ cfg.dccUpper.get ch.iron ∧ ch.fixedDuty.toNat ≤ 100

/-- The invariants of R180, with the reset state's exception of R182 (`off` with `Unknown`). -/
def StateInv (ch : Channel) : Prop :=
  (ch.iron = .unknown → ch.state = .noTool ∨ ch.state = .overload ∨ ch.state = .off)
    ∧ (ch.state = .noTool → ch.iron = .unknown)
    ∧ (ch.state.isHeating = true ↔ ch.ctlEn = true)
    ∧ (ch.isRunning = false → ch.duty = 0 ∧ ch.on = false ∧ ch.drive = 0)
    ∧ (ch.state.isHeating = true → ch.tip ≠ tipNone ∧ ironKnown ch.iron = true)

/-- The pin columns of R180: no supply and no LED in `off`, `noTool` and `noTip`; both on while running;
and the drive is 0 or the legs of the iron (R151, R163). -/
def PinsInv (cfg : Config) (ch : Channel) : Prop :=
  (ch.state = .off ∨ ch.state = .noTool ∨ ch.state = .noTip → ch.voltSel = 0 ∧ ch.led = false)
    ∧ (ch.isRunning = true → ch.voltSel = vselOf cfg ch.iron ∧ ch.led = true)
    ∧ (ch.drive = 0 ∨ ch.drive = ironLegs ch.iron)

/-- R254: a tip reference that is not NONE names an allocated slot of the channel's iron type. -/
def TipRefInv (cfg : Config) (tips : List TipRecord) (ch : Channel) : Prop :=
  ch.tip ≠ tipNone →
    ch.iron ≠ .unknown ∧ ch.tip.toNat < cfg.numTipSettings
      ∧ (tipAt tips ch.tip.toNat).allocated = true ∧ (tipAt tips ch.tip.toNat).iron cfg = ch.iron

/-- The ranges of the temperatures and counters of R25 and R26. -/
def RangesInv (cfg : Config) (ch : Channel) : Prop :=
  ch.userTemp.toNat ≤ 32767 ∧ ch.setbackTemp.toNat ≤ 32767 ∧ (∀ i, (ch.presets.get i).toNat ≤ 32767)
    ∧ ch.identCnt.toNat < cfg.identInterval

/-- The controller's held output lies between 0 and `OUT_MAX_M` (R29, log 19). -/
def OutputInv (cfg : Config) (ch : Channel) : Prop :=
  0 ≤ ch.curOut.toInt ∧ ch.curOut.toInt ≤ cfg.outMaxM ∧ 0 ≤ ch.tbhPrev.toInt ∧ ch.tbhPrev.toInt ≤ cfg.outMaxM

/-- Everything above of one channel. -/
def ChannelInv (cfg : Config) (tips : List TipRecord) (ch : Channel) : Prop :=
  DutyInv cfg ch ∧ StateInv ch ∧ PinsInv cfg ch ∧ TipRefInv cfg tips ch ∧ RangesInv cfg ch ∧ OutputInv cfg ch

/-- Both channels. -/
def ChannelsInv (s : State) : Prop := ∀ c, ChannelInv s.cfg s.tips (s.chan c)

/-! The moving averages -/

/-- R28: a buffer of length `n`, the count and the index in range, unused entries zero, and the sum of the
entries. -/
def AverageOk (n : Nat) (m : MovingAvg) : Prop :=
  m.buf.length = n ∧ m.cnt ≤ n ∧ m.idx < n
    ∧ (m.cnt < n → m.idx = m.cnt ∧ ∀ i, m.cnt ≤ i → m.buf.getD i 0 = 0)
    ∧ m.sum = m.buf.sum

/-- Every moving average of a channel has its length and its form. -/
def AveragesInv (cfg : Config) (ch : Channel) : Prop :=
  AverageOk cfg.avgLen ch.avgA ∧ AverageOk cfg.avgLen ch.avgB ∧ AverageOk cfg.avgLen ch.avgC
    ∧ AverageOk cfg.pwrAvgLen ch.pwr

/-! The halted machine and the sticky flags -/

/-- A fatal trap holds its code and keeps both drives off (R281, R283); a rejection holds its code
(R284). -/
def HaltInv (s : State) : Prop :=
  (s.fatal = true ↔ s.fatalCode ≠ none) ∧ (s.fatal = true → s.ch0.drive = 0 ∧ s.ch1.drive = 0)
    ∧ (s.cmdErr = true ↔ s.cmdCode ≠ none)

/-- No leg of a heater is energised unless its channel runs and the machine is not halted: what a safe run
never leaves. -/
def DriveSafe (s : State) : Prop :=
  ∀ c, (s.chan c).drive ≠ 0 → (s.chan c).isRunning = true ∧ s.fatal = false

/-! The transitions -/

/-- The commands R187 counts as user interactions of channel `c`, other than CH.SETSTATE. -/
def isInteraction (c : Chan) : Instr → Bool
  | .chSettemp d _ | .chChangetip d _ => d == c
  | .chNextpreset d | .chInteract d => d == c
  | _ => false

/-- `TipPresent(c)` of R35, iron by iron. -/
def tipSensed (ch : Channel) : Bool :=
  match ch.iron with
  | .t12 | .jbc | .weller => ch.presentA
  | .attenTweezers => ch.presentA && ch.presentB
  | .unknown | .dummy => false

/-- T10, T11 and T14 of R181: switched off by the host from state `a` to state `b`. CTL.DISABLE and
CH.SETSTATE off also take a channel that was never identified from the reset state `off` to `noTool` (R236,
R200, log 20). -/
def SwitchedOff (iron : Iron) (a b : ChState) : Prop :=
  ((a = .active ∨ a = .setback ∨ a = .fixedPower) ∧ b = .off)
    ∨ ((a = .overload ∨ a = .noTip) ∧ b = if iron = .unknown then .noTool else .off)
    ∨ (a = .off ∧ iron = .unknown ∧ b = .noTool)

/-- T7, T5 and T8 of R181: the moves of one control update from state `a` of `ch` to state `b`; `present` is
`TipPresent(c)` at the update. -/
def MovedByUpdate (cfg : Config) (ch : Channel) (present : Bool) (b : ChState) : Prop :=
  let a := ch.state
  let idle := min (ch.idleMs.toNat + cfg.idleTickMs) (2 ^ 32 - 1)
  ((a = .active ∨ a = .setback ∨ a = .fixedPower) ∧ ch.safetyOffTime.toNat * 1000 ≤ idle ∧ b = .off)
    ∨ (a = .active ∧ ch.setbackTime.toNat * 1000 ≤ idle ∧ idle < ch.safetyOffTime.toNat * 1000
      ∧ b = .setback)
    ∨ ((a = .active ∨ a = .setback) ∧ present = false ∧ b = .noTip)

/-- T2 and T3 of R181: the moves of an identification from state `a` with iron `old` to state `b` with iron
`new`. A change from one known type to another takes T2 and T3 in one handler (R194), so `noTip` may end in
`off` (log 20). -/
def MovedByIdentification (old new : Iron) (a b : ChState) : Prop :=
  ((a = .off ∨ a = .noTip) ∧ new = .unknown ∧ b = .noTool)
    ∨ (a = .noTool ∧ new ≠ .unknown ∧ b = .off)
    ∨ (a = .noTip ∧ new ≠ .unknown ∧ new ≠ old ∧ b = .off)

/-- The moves the table of R181 allows a channel `c` within the step of an operation that leads from `s` to
`t` and changes the channel's state: for each cause its sources, its guard and its targets. -/
def TransitionAllowed (i : Instr) (c : Chan) (s t : State) : Prop :=
  let ch := s.chan c
  let a := ch.state
  let b := (t.chan c).state
  match i with
  | .evRst => b = .off ∧ (t.chan c).iron = .unknown
  | .evOc => b = .overload
  | .evTmr => MovedByUpdate s.cfg ch (tipSensed (t.chan c)) b
  | .evAdc tag _ =>
    MovedByUpdate s.cfg ch (tipSensed (t.chan c)) b
      ∨ (tag &&& 0xFE = 0x02 ∧ (if tag.getLsbD 0 then Chan.ch1 else Chan.ch0) = c
        ∧ MovedByIdentification ch.iron (t.chan c).iron a b)
  | .ctlDisable => SwitchedOff ch.iron a b
  | .ctlToggle => s.ctlEnabled = true ∧ SwitchedOff ch.iron a b
  | .chSetstate d idx =>
    d = c ∧ ((idx = 0 ∧ SwitchedOff ch.iron a b)
      ∨ (idx = 2 ∧ s.ctlEnabled = true ∧ ch.iron ≠ .unknown ∧ ch.tip ≠ 0xFF
        ∧ (a = .off ∨ a = .setback ∨ a = .fixedPower) ∧ b = .active))
  | .chFixedpwr d _ =>
    d = c ∧ s.ctlEnabled = true ∧ ch.iron ≠ .unknown ∧ (a = .off ∨ a = .active ∨ a = .setback)
      ∧ b = .fixedPower
  | j => isInteraction c j = true ∧ a = .setback ∧ b = .active

/-! Operations called inside a rule, and runs of several -/

/-- "Calling another operation by its mnemonic ... executes that operation's rule inline as part of the same
atomic step" (R16): the state after it, the model's own `ret` field kept (log 3). -/
def after (i : Instr) (s : State) : State :=
  match exec i s with
  | .next t => { t with ret := s.ret }
  | .fault _ => s
  | .refused _ => s

/-- Operations executed one after another, each by itself. -/
def runInstrs : List Instr → State → Host.Outcome State Fault Refusal
  | [], s => .next s
  | i :: is, s =>
    match exec i s with
    | .next t => runInstrs is t
    | .fault r => .fault r
    | .refused r => .refused r

/-- A controller step of channel `c` (R134, R138). -/
def isControllerStep (c : Chan) : Instr → Bool
  | .pidStep d _ _ | .tbhStep d _ _ => d == c
  | _ => false

/-- The numbers that operations executed one after another hand over (R134, R138). -/
def resultsOf : List Instr → State → List OpResult
  | [], _ => []
  | i :: is, s =>
    match exec i s with
    | .next t => t.ret :: resultsOf is t
    | .fault _ => []
    | .refused _ => []

/-- The output returned at the last sign change of the error in a run of TBH.STEP, `h` if there was none
(R139), and the state after the run. -/
def lastFlipOutput (c : Chan) : List (BitVec 16 × BitVec 16) → State → OpResult → OpResult × State
  | [], s, h => (h, s)
  | x :: xs, s, h =>
    match exec (.tbhStep c x.1 x.2) s with
    | .next t =>
      lastFlipOutput c xs t
        (if (s.chan c).haveErr = true
            ∧ ((x.1.toNat - x.2.toInt : Int) < 0 ↔ ¬ (s.chan c).lastErr.toInt < 0) then t.ret else h)
    | .fault _ => (h, s)
    | .refused _ => (h, s)

/-- A moving average of length `n` after a history of pushes, oldest first (R28). -/
def pushAll (n : Nat) (l : List (BitVec 32)) : MovingAvg := l.foldl MovingAvg.push (.empty n)

/-- One channel's turn of CTRL.UPDATE (R228), line by line. -/
def updateTurn (c : Chan) (s : State) : State :=
  let s := after (.chIdle c (BitVec.ofNat 32 s.cfg.idleTickMs)) s
  let s :=
    if (s.chan c).state.isHeating = true ∧ tipSensed (s.chan c) = false then after (.chSetst c .noTip) s
    else s
  let s := s.updChan c fun ch => { ch with curTemp := BitVec.ofInt 16 (ch.measTemp s.cfg s.tips) }
  let s := after (.measUpd c (s.chan c).effTarget) s
  after (.chUpddrive c) s

/-- `Interact(c)` (R187), line by line. -/
def interactTurn (c : Chan) (s : State) : State :=
  let s := s.updChan c fun ch => { ch with idleMs := 0 }
  if (s.chan c).state = .setback then after (.chSetst c .active) s else s

/-- `MeasReset(c)` (R155), line by line. -/
def freshBlock (cfg : Config) (ch : Channel) : Channel :=
  { ch with
    avgA := .empty cfg.avgLen, avgB := .empty cfg.avgLen, avgC := .empty cfg.avgLen
    pwr := .empty cfg.pwrAvgLen
    rawA := 0, rawB := 0, rawC := 0, presentA := false, presentB := false
    ctlEn := false, curOut := 0, iAcc := 0, tbhPrev := 0, haveIn := false, haveErr := false
    duty := 0, acc := 0, on := false }

/-! Runs of one operation -/

/-- The on/off decisions of `n` executions of DCC.ADV on a channel, and the state after them (R124). -/
def dccTicks (c : Chan) : Nat → State → List Bool × State
  | 0, s => ([], s)
  | n + 1, s =>
    match exec (.dccAdv c) s with
    | .next t => let r := dccTicks c n t; ((t.chan c).on :: r.1, r.2)
    | .fault _ => ([], s)
    | .refused _ => ([], s)

/-- The result word of an accepted command (R98). -/
def accepted (s : State) : Option RegWord := if s.respOk then some s.resp else none

end Sys2Proof.Machine
end

