-- ==== Sys2Proof/Certificates/Slice0/Obligations.lean ====
section
/-! DEFINITION. The statements for the provers. Each docstring names the rules of spec/ it formalises. A
completion statement gives the whole next state as updates of the state before, so everything it does
not name is unchanged; `after` is R16's "executes that operation's rule inline". -/

open Sys2Proof Sys2Proof.Machine

/-! ## The stimulus word -/

/-- R91, R92, R95, R110: the word of every operation that can be issued decodes to that operation with every
operand, an internal operation's word encodes no operand and decodes to its opcode; and a word that decodes
to an operation that can be issued is that operation's word. -/
def Obligations.DecodeEncodeAgree : Prop :=
  (∀ i : Instr,
     (i.issuable = true → decode (encode i) = .ok i)
       ∧ (i.isInternal = true → ∃ j, decode (encode i) = .ok j ∧ j.opcode = i.opcode))
    ∧ (∀ (w : StimWord) (i : Instr), decode w = .ok i → i.issuable = true → encode i = w)

/-- R93: the four steps of decoding, for every 64-bit word. -/
def Obligations.DecodingFollowsTheTable : Prop :=
  ∀ w : StimWord,
    ((∀ r ∈ opcodeTable, r.op ≠ opField w) → decode w = .error (.reservedOpcode (opField w)))
      ∧ ∀ r ∈ opcodeTable, r.op = opField w →
        (w &&& r.format.mask ≠ r.pattern → decode w = .error (.mustBeZero r.mnemonic))
          ∧ (w &&& r.format.mask = r.pattern → decode w = .ok (r.build w))

/-- The words R110 and the command rules print, and words with a must-be-zero bit set. -/
def Obligations.PrintedWordsDecode : Prop :=
  decode 0x0200000000000000 = .ok .evZc
    ∧ decode 0x04000004000004D2 = .ok (.evAdc 0x04 1234)
    ∧ decode 0x1000000000000000 = .ok .ctlEnable
    ∧ decode 0x2012000000000000 = .ok (.chSetstate .ch1 2)
    ∧ decode 0x2100000000000DAC = .ok (.chSettemp .ch0 3500)
    ∧ decode 0x31020FA000002328 = .ok (.calSet .ch0 2 4000 9000)
    ∧ decode 0x510001140000012C = .ok (.regWr 0x0114 300)
    ∧ decode 0x2220000000000000 = .error (.mustBeZero "CH.NEXTPRESET")
    ∧ decode 0x0200000000000001 = .error (.mustBeZero "EV.ZC")
    ∧ decode 0x0000000000000000 = .error (.reservedOpcode 0x00)

/-- R101, R102, R103: composing, tagging and stripping a mux code; every code of five flags is made, and
stripping a tag gives back the untagged code and the channel (the spec's own inference, "derived: from rule
R102"). -/
def Obligations.MuxCodesComposeTagAndStrip : Prop :=
  (∀ (ch sub amp bias boost : Bool) (s : State), ∃ m : MuxCode,
      exec (.muxMake ch sub amp bias boost) s = .next { s with ret := .code m }
        ∧ m.getLsbD 0 = ch ∧ m.getLsbD 1 = sub ∧ m.getLsbD 2 = amp ∧ m.getLsbD 3 = bias
        ∧ m.getLsbD 4 = boost ∧ m.extractLsb' 5 3 = 0)
    ∧ (∀ (m : MuxCode) (c : Chan) (s : State),
      exec (.muxTag m c) s
        = .next { s with ret := .code (m ||| (match c with | .ch0 => 0#8 | .ch1 => 1#8)) })
    ∧ (∀ (t : MuxCode) (s : State),
      exec (.muxStrip t) s
        = .next { s with ret := .parts (t &&& 0xFE#8) (if t.getLsbD 0 then .ch1 else .ch0) })
    ∧ (∀ m : MuxCode, codeBits m = true → ∃ ch sub amp bias boost, muxMake ch sub amp bias boost = m)
    ∧ (∀ (m : MuxCode) (c : Chan), untagged m = true →
      muxStrip (muxTag m c) = m ∧ chanOf (muxTag m c) = c)

/-! ## The step -/

/-- R90, R6: when the word that happens next decodes to an operation that can be issued, the step is that
operation's meaning, run with the latches clear and the pulse pins back at 0 (logs 4 and 16). -/
def Obligations.StepRunsTheDecodedOperation : Prop :=
  ∀ (s : State) (w : StimWord) (i : Instr), configLegal s.cfg = true → decode w = .ok i →
    i.issuable = true →
    step { s with pend := wordPending w, rst := false }
      = exec i { s with pend := Pending.clear, rst := false, adcStart := false, tmrArm := false }

/-- R286, R62, R96: which pending stimulus a step takes, and that it clears this one latch; with nothing
pending the machine waits (log 5), and the pulse pins are back at 0 (log 4). R60, R310 (3): while `rst` is held
the step is EV.RST whatever is pending, `rst` stays, no pulse is latched, and every output pin shows its reset
value; a hold, however short, leaves the machine as EV.RST completed (log 6). -/
def Obligations.StimuliTakenInOrder : Prop :=
  (∀ s : State, configLegal s.cfg = true →
    let rest (p : Pending) : State := { s with pend := p, adcStart := false, tmrArm := false }
    step s =
      if s.rst = true ∨ s.pend.rst = true then exec .evRst (rest { s.pend with rst := false })
      else if s.pend.oc then exec .evOc (rest { s.pend with oc := false })
      else if s.pend.zc then exec .evZc (rest { s.pend with zc := false })
      else if s.pend.tmr then exec .evTmr (rest { s.pend with tmr := false })
      else
        match s.pend.adc with
        | some x => exec (.evAdc x.1 x.2) (rest { s.pend with adc := none })
        | none =>
          match s.pend.cmd with
          | none => .next (rest s.pend)
          | some w =>
            match decode w with
            | .ok i =>
              if i.isHost then exec i (rest { s.pend with cmd := none })
              else .next ((rest { s.pend with cmd := none }).reject .illegal)
            | .error _ => .next ((rest { s.pend with cmd := none }).reject .illegal))
    ∧ (∀ s : State, s.rst = true →
      (configLegal s.cfg = true → ∃ t, step s = .next t ∧ exec .evRst s = .next t ∧ t.rst = true)
        ∧ s.pulseOc = s ∧ s.pulseZc = s ∧ s.pulseTmr = s ∧ (∀ tag raw, s.pulseAdc tag raw = s)
        ∧ (∀ w, s.presentCommand w = s)
        ∧ s.outputPins =
          { adcStart := false, adcMux := 0xFF, tmrArm := false, tmrUs := BitVec.ofNat 16 s.cfg.sampleDelayUs
            ch0 := { drive := 0, voltSel := 0, led := false }
            ch1 := { drive := 0, voltSel := 0, led := false }
            refreshReq := false, logReq := false, fatal := false, resp := 0, respOk := true })
    ∧ ∀ s : State,
      (s.setRst true).rst = true ∧ exec .evRst { s with rst := false } = .next ((s.setRst true).setRst false)

/-- R96: an illegal word, an event opcode and an internal opcode on the command port are rejected with
`E_ILLEGAL`; the reserved opcodes and the all-zero word are illegal. R97: a stream with an illegal word or an
internal opcode is refused whole, an EV.ADC word above `ADC_FS` is refused when it is reached, and every
other stream runs word by word. -/
def Obligations.OtherWordsAreTurnedAway : Prop :=
  ((∀ (s : State) (w : StimWord), configLegal s.cfg = true → s.rst = false →
       s.pend.first = some (.cmd w) →
       (∀ i, decode w = .ok i → i.isHost = false) →
       step s = .next
         { s with
           pend := { s.pend with cmd := none }, adcStart := false, tmrArm := false
           cmdErr := true, cmdCode := some .illegal, resp := 0xFFFFFFFF, respOk := false })
     ∧ (∀ w : StimWord,
       (let op := (opField w).toNat
        op = 0x00 ∨ (0x06 ≤ op ∧ op ≤ 0x0F) ∨ (0x14 ≤ op ∧ op ≤ 0x1F) ∨ (0x2B ≤ op ∧ op ≤ 0x2F)
         ∨ (0x35 ≤ op ∧ op ≤ 0x3F) ∨ (0x43 ≤ op ∧ op ≤ 0x4F) ∨ (0x52 ≤ op ∧ op ≤ 0x7F)
         ∨ (0x83 ≤ op ∧ op ≤ 0x87) ∨ (0x8C ≤ op ∧ op ≤ 0x8F) ∨ (0x93 ≤ op ∧ op ≤ 0x97)
         ∨ (0x9E ≤ op ∧ op ≤ 0x9F) ∨ (0xA8 ≤ op ∧ op ≤ 0xAF) ∨ (0xB3 ≤ op ∧ op ≤ 0xBE)
         ∨ 0xC0 ≤ op) →
       decode w = .error (.reservedOpcode (opField w)))
     ∧ ∀ w : StimWord, 0x80 ≤ (opField w).toNat → ∀ i, decode w = .ok i → i.isInternal = true)
    ∧ ((∀ (ws : List StimWord) (s : State),
           (∃ w ∈ ws, (∃ e, decode w = .error e) ∨ ∃ i, decode w = .ok i ∧ i.isInternal = true) →
           ∃ r, runStream ws s = .refused r)
         ∧ (∀ (tag : BitVec 8) (raw : BitVec 16) (s : State), s.cfg.adcFs < raw.toNat →
           exec (.evAdc tag raw) s = .refused .rawBeyondFullScale)
         ∧ ∀ (w : StimWord) (ws : List StimWord) (s : State),
           (∀ v ∈ w :: ws, ∃ i, decode v = .ok i ∧ i.issuable = true) →
           runStream (w :: ws) s =
             match step { s with pend := wordPending w, rst := false } with
             | .next t => runStream ws t
             | .fault r => .fault r
             | .refused r => .refused r)

/-- R9: no operation changes a parameter, and a configuration outside the legal ranges (logs 11 and 15) is
refused. -/
def Obligations.ParametersAreConstant : Prop :=
  (∀ s : State, configLegal s.cfg = false → step s = .refused .illegalConfig)
    ∧ (∀ (i : Instr) (s t : State), exec i s = .next t → t.cfg = s.cfg)
    ∧ ∀ s t : State, step s = .next t → t.cfg = s.cfg

/-- The "written by" columns of R21, R22 and R25 to R31, and R54: which operations issued from outside can
change each element of the state, pin and register; the rules an operation calls count as its own (R16). A
change of anything else has no cause. -/
def Obligations.StateIsWrittenOnlyByItsOperations : Prop :=
  ∀ (i : Instr) (s t : State), i.issuable = true → i ≠ .evRst → exec i s = .next t →
    let conversion : Prop := ∃ tag raw, i = .evAdc tag raw
    let update : Prop := i = .evTmr ∨ conversion
    let wrongTip : Prop := ∃ c n, i = .chChangetip c n
    let clear : Prop := ∃ v, i = .regWr 0x0005 v
    let written : Prop := ∃ a v, i = .regWr a v
    let disable : Prop := i = .ctlDisable ∨ i = .ctlToggle
    t.cfg = s.cfg ∧ t.pend = s.pend ∧ t.chipTempIn = s.chipTempIn ∧ t.rst = s.rst ∧ t.ret = s.ret
      ∧ (t.ctlEnabled ≠ s.ctlEnabled → i = .ctlEnable ∨ disable)
      ∧ (t.fatal ≠ s.fatal ∨ t.fatalCode ≠ s.fatalCode → conversion ∨ wrongTip)
      ∧ (t.overrun ≠ s.overrun → i = .evZc ∨ clear)
      ∧ (t.cmdErr ≠ s.cmdErr ∨ t.cmdCode ≠ s.cmdCode ∨ t.resp ≠ s.resp ∨ t.respOk ≠ s.respOk →
          i.isHost = true)
      ∧ (t.timerArmed ≠ s.timerArmed → i = .evZc ∨ i = .evTmr)
      ∧ (t.adcBusy ≠ s.adcBusy ∨ t.qIdx ≠ s.qIdx ∨ t.adcMux ≠ s.adcMux ∨ t.adcStart ≠ s.adcStart → update)
      ∧ (t.tmrArm ≠ s.tmrArm → i = .evZc)
      ∧ (t.q ≠ s.q ∨ t.qLen ≠ s.qLen → i = .evTmr)
      ∧ (t.refreshCnt ≠ s.refreshCnt ∨ t.reportCnt ≠ s.reportCnt → i = .evZc)
      ∧ (t.refreshReq ≠ s.refreshReq → i = .evZc ∨ i = .evOc ∨ clear)
      ∧ (t.logReq ≠ s.logReq → i = .evZc ∨ clear)
      ∧ (t.chipTemp ≠ s.chipTemp → i = .ctlChiptemp)
      ∧ (t.tips ≠ s.tips → conversion ∨ written ∨ (∃ c j, i = .calSave c j)
          ∨ (∃ c j x m, i = .calSet c j x m) ∨ (∃ n, i = .tipAlloc n) ∨ ∃ n, i = .tipFree n)
      ∧ ∀ c,
        let x := s.chan c
        let y := t.chan c
        let changeTip : Prop := ∃ n, i = .chChangetip c n
        let switch : Prop := (∃ j, i = .chSetstate c j) ∨ ∃ d, i = .chFixedpwr c d
        let interaction : Prop :=
          (∃ v, i = .chSettemp c v) ∨ i = .chNextpreset c ∨ i = .chInteract c ∨ changeTip
        (y.state ≠ x.state → update ∨ i = .evOc ∨ disable ∨ switch ∨ interaction)
          ∧ (y.iron ≠ x.iron ∨ y.idOhms ≠ x.idOhms → conversion)
          ∧ (y.userTemp ≠ x.userTemp → (∃ v, i = .chSettemp c v) ∨ i = .chNextpreset c)
          ∧ (y.curTemp ≠ x.curTemp → update)
          ∧ (y.preset ≠ x.preset → i = .chNextpreset c)
          ∧ (y.idleMs ≠ x.idleMs → update ∨ switch ∨ interaction)
          ∧ (y.tip ≠ x.tip ∨ y.k ≠ x.k → conversion ∨ changeTip)
          ∧ (y.identCnt ≠ x.identCnt → i = .evTmr)
          ∧ (y.fixedDuty ≠ x.fixedDuty → ∃ d, i = .chFixedpwr c d)
          ∧ (y.drive ≠ x.drive → i = .evZc ∨ update ∨ i = .evOc ∨ disable ∨ switch ∨ wrongTip)
          ∧ (y.voltSel ≠ x.voltSel ∨ y.led ≠ x.led → update ∨ disable ∨ switch ∨ interaction)
          ∧ (y.presets ≠ x.presets ∨ y.setbackTemp ≠ x.setbackTemp ∨ y.setbackTime ≠ x.setbackTime
              ∨ y.safetyOffTime ≠ x.safetyOffTime → written)
          ∧ (y.selectedTip ≠ x.selectedTip → conversion ∨ changeTip ∨ written ∨ ∃ n, i = .tipFree n)
          ∧ (y.avgA ≠ x.avgA ∨ y.avgB ≠ x.avgB ∨ y.avgC ≠ x.avgC ∨ y.rawA ≠ x.rawA ∨ y.rawB ≠ x.rawB
              ∨ y.rawC ≠ x.rawC ∨ y.presentA ≠ x.presentA ∨ y.presentB ≠ x.presentB → conversion)
          ∧ (y.pwr ≠ x.pwr ∨ y.acc ≠ x.acc ∨ y.curOut ≠ x.curOut ∨ y.lastIn ≠ x.lastIn
              ∨ y.lastErr ≠ x.lastErr → update)
          ∧ (y.ctlEn ≠ x.ctlEn ∨ y.duty ≠ x.duty ∨ y.on ≠ x.on → update ∨ i = .evOc ∨ disable ∨ switch)
          ∧ (y.iAcc ≠ x.iAcc ∨ y.tbhPrev ≠ x.tbhPrev ∨ y.haveIn ≠ x.haveIn ∨ y.haveErr ≠ x.haveErr →
              update ∨ ∃ j, i = .chSetstate c j)

/-! ## Invariants every step keeps -/

/-- R312, R65: every invariant below holds right after reset, under every legal configuration. -/
def Obligations.InvariantsHoldAtReset : Prop :=
  ∀ (cfg : Config) (v : BitVec 16) (b : Bool), configLegal cfg = true →
    let s := State.resetWith cfg v b
    SchedulerInv s ∧ CountersInv s ∧ DispatchInv s ∧ PoolInv s ∧ ChannelsInv s
      ∧ (∀ c, AveragesInv s.cfg (s.chan c)) ∧ HaltInv s ∧ DriveSafe s

/-- R23 (the spec's own inference there), R24, R231: every step keeps the invariant of the queue and the
sequence pointer, and the zero-crossing counters below their intervals. -/
def Obligations.QueueInvariantKept : Prop :=
  ∀ s t : State, SchedulerInv s → CountersInv s → step s = .next t → SchedulerInv t ∧ CountersInv t

/-- R31: every step keeps the pool at `NUM_TIP_SETTINGS` records with their fields in range, in a
configuration whose tip names all belong to known irons (the only ones R252 gives a default calibration). -/
def Obligations.TipPoolInvariantKept : Prop :=
  ∀ s t : State, (∀ i ∈ s.cfg.tipNameIron, i ≠ .unknown) → PoolInv s → step s = .next t → PoolInv t

/-- R30, R180 (with the exception of R182), R254: every step keeps the invariants of both channels, the
spec's own inferences ("derived: from rules R181 to R205"). The bound of the held output is the model's,
log 19. -/
def Obligations.ChannelInvariantKept : Prop :=
  ∀ s t : State, s.poolWf = true → ChannelsInv s → step s = .next t → ChannelsInv t

/-- R28: every step keeps every moving average in its form, its sum the sum of its entries. -/
def Obligations.AveragesInvariantKept : Prop :=
  ∀ s t : State, (∀ c, AveragesInv s.cfg (s.chan c)) → step s = .next t →
    ∀ c, AveragesInv t.cfg (t.chan c)

/-- R158 (the spec's own inference, "derived: from rule R224 and rule R191"): every step keeps every
conversion still to come one its channel's iron has a slot for. -/
def Obligations.DispatchInvariantKept : Prop :=
  ∀ s t : State, SchedulerInv s → DispatchInv s → step s = .next t → DispatchInv t

/-- R158, R63, R225: with a legal configuration and a platform that keeps the protocol, the only trap a step
can newly raise is the host's `E_TIP_MISMATCH`. That `E_MEAS_MUX` cannot arise is the spec's own inference
in R158. -/
def Obligations.OnlyTipMismatchTraps : Prop :=
  ∀ s t : State, SchedulerInv s → DispatchInv s → s.platformObeys = true → s.fatal = false →
    step s = .next t → t.fatal = true → t.fatalCode = some .tipMismatch

/-- R281, R283, R284: a trap holds its code and keeps both drives off, a rejection holds its code, and every
step keeps it so. -/
def Obligations.HaltInvariantKept : Prop := ∀ s t : State, HaltInv s → step s = .next t → HaltInv t

/-- R180, R283: from any state with the channel and halt invariants, a step leaves no heater driven unless its
channel runs and the machine is not halted. -/
def Obligations.NoStepDrivesAnIdleHeater : Prop :=
  ∀ s t : State, s.poolWf = true → ChannelsInv s → HaltInv s → step s = .next t → DriveSafe t

/-- R181: an operation changes a channel's state only along the table, for each cause from its sources, under
its guard, to its targets. Two moves of the pseudocode the table does not list are the model's reading,
log 20. -/
def Obligations.OnlyTableTransitions : Prop :=
  ∀ (i : Instr) (s t : State) (c : Chan), i.issuable = true → ChannelsInv s → exec i s = .next t →
    (t.chan c).state ≠ (s.chan c).state → TransitionAllowed i c s t

/-- R284, R98, R203: a host command ends in one of three ways: accepted, with `cmd_err` and `cmd_code` left
alone (REG.WR to `IRQ_CLEAR` apart); rejected, with nothing else changed; or halted by the trap of
CH.CHANGETIP. -/
def Obligations.EveryCommandAnswers : Prop :=
  ∀ (i : Instr) (s t : State), i.isHost = true → exec i s = .next t →
    (t.respOk = true
        ∧ ((∀ v, i ≠ .regWr 0x0005 v) → t.cmdErr = s.cmdErr ∧ t.cmdCode = s.cmdCode))
      ∨ (∃ code, t = { s with
            cmdErr := true, cmdCode := some code, resp := 0xFFFFFFFF, respOk := false })
      ∨ ((∃ c n, i = .chChangetip c n) ∧ t = { s with
            fatal := true, fatalCode := some .tipMismatch
            ch0 := { s.ch0 with drive := 0 }, ch1 := { s.ch1 with drive := 0 }
            cmdErr := true, cmdCode := some .halted, resp := 0xFFFFFFFF, respOk := false })

/-! ## Duty-cycle counter -/

/-- R121, R122, R123. -/
def Obligations.DutyCycleOperations : Prop :=
  (∀ (c : Chan) (d : BitVec 32) (s : State),
      exec (.dccSet c d) s
        = .next (s.updChan c fun ch =>
            { ch with duty := BitVec.ofInt 7 (clamp d.toInt 0 (s.cfg.dccUpper.get ch.iron)) }))
    ∧ (∀ (c : Chan) (s : State),
      let a := (s.chan c).acc.toNat + (s.chan c).duty.toNat
      exec (.dccAdv c) s
        = .next (s.updChan c fun ch =>
            if 100 ≤ a then { ch with on := true, acc := BitVec.ofNat 7 (a - 100) }
            else { ch with on := false, acc := BitVec.ofNat 7 a }))
    ∧ ∀ (c : Chan) (s : State), exec (.dccIson c) s = .next { s with ret := .bit (s.chan c).on }

/-- R124: with the duty held, every window of `100 * k` consecutive ticks has exactly `duty * k` on-ticks,
whatever the accumulator at its start; over any number of ticks the on-ticks make up for the change of the
accumulator. The spec's own inference ("derived: from rule R122"). -/
def Obligations.DutyIsExactOverWindows : Prop :=
  ∀ (c : Chan) (s : State), (s.chan c).acc.toNat < 100 → (s.chan c).duty.toNat ≤ 100 →
    (∀ k : Nat, (dccTicks c (100 * k) s).1.countP id = (s.chan c).duty.toNat * k)
      ∧ ∀ n : Nat,
        100 * (dccTicks c n s).1.countP id + ((dccTicks c n s).2.chan c).acc.toNat
          = (s.chan c).duty.toNat * n + (s.chan c).acc.toNat

/-! ## Controllers -/

/-- R131, R132: loading the gains changes nothing else; enabling presets the integral to the held output, is
idempotent, and disabling keeps everything but the enable. -/
def Obligations.ControllerLoadAndEnable : Prop :=
  (∀ (c : Chan) (slot : BitVec 8) (s : State),
      exec (.ctlLoad c slot) s
        = .next (s.updChan c fun ch => { ch with k := (s.tip slot.toNat).k }))
    ∧ (∀ (c : Chan) (b : Bool) (s : State), b = (s.chan c).ctlEn → exec (.ctlEn c b) s = .next s)
    ∧ (∀ (c : Chan) (s : State), (s.chan c).ctlEn = false → ∃ acc : BitVec 64,
      acc.toInt = (s.chan c).curOut.toInt * 10 ^ 7
        ∧ exec (.ctlEn c true) s
          = .next (s.updChan c fun ch =>
              { ch with
                ctlEn := true, iAcc := acc, tbhPrev := ch.curOut, haveIn := false, haveErr := false }))
    ∧ ∀ (c : Chan) (s : State), (s.chan c).ctlEn = true →
      exec (.ctlEn c false) s = .next (s.updChan c fun ch => { ch with ctlEn := false })

/-- R133, R134, line by line. -/
def Obligations.PidStepFollowsItsRule : Prop :=
  ∀ (c : Chan) (target actual : BitVec 16) (s : State),
    let ch := s.chan c
    let err : Int := target.toNat - actual.toInt
    let prev := ch.curOut.toInt
    let inc := (ch.k.x1.toNat : Int) * err * s.cfg.intervalUs
    let inc := if prev ≤ s.cfg.outMinM then inc.tdiv 2 else inc
    let acc := sat64 (ch.iAcc.toInt + inc)
    let lim : Int := ch.k.x3.toNat * 10 ^ 7
    let acc := if acc < -lim then -lim else acc
    let acc :=
      if prev ≥ s.cfg.outMaxM ∧ ch.haveErr = true ∧ err > ch.lastErr.toInt ∧ acc > lim then lim else acc
    let p := ((ch.k.x0.toNat : Int) * err).tdiv 10
    let d :=
      if ch.haveIn = false then 0
      else ((ch.k.x2.toNat : Int) * (actual.toInt - ch.lastIn.toInt) * 100000).tdiv s.cfg.intervalUs
    let out := clamp (p + acc.tdiv (10 ^ 7) - d) s.cfg.outMinM s.cfg.outMaxM
    exec (.pidStep c target actual) s =
      if ch.ctlEn = false then .next { s with ret := .number prev }
      else
        .next
          { s.setChan c
              { ch with
                iAcc := BitVec.ofInt 64 acc, curOut := BitVec.ofInt 32 out
                lastIn := actual, haveIn := true, lastErr := BitVec.ofInt 32 err, haveErr := true } with
            ret := .number out }

/-- R135: after a step of an enabled PID the output is inside the clamp and the integral is not below
`-Ilimit`; it is not above `Ilimit` when the condition of the positive clamp held. The spec's own inference
("derived: from rule R134"). -/
def Obligations.PidStaysInItsBounds : Prop :=
  ∀ (c : Chan) (target actual : BitVec 16) (s t : State), configLegal s.cfg = true →
    (s.chan c).ctlEn = true → exec (.pidStep c target actual) s = .next t →
    let lim : Int := (s.chan c).k.x3.toNat * 10 ^ 7
    (s.cfg.outMinM : Int) ≤ (t.chan c).curOut.toInt ∧ (t.chan c).curOut.toInt ≤ s.cfg.outMaxM
      ∧ -lim ≤ (t.chan c).iAcc.toInt
      ∧ ((s.chan c).curOut.toInt ≥ s.cfg.outMaxM → (s.chan c).haveErr = true →
          (target.toNat : Int) - actual.toInt > (s.chan c).lastErr.toInt → (t.chan c).iAcc.toInt ≤ lim)

/-- R136: disabling and enabling leaves the held output, every controller step between returns it, and the
first step after it with no error returns it again. The spec's own inference ("derived: from rules R132 and
R134"). -/
def Obligations.TransferIsBumpless : Prop :=
  ∀ (c : Chan) (steps : List Instr) (s : State), (∀ i ∈ steps, isControllerStep c i = true) →
    (s.chan c).ctlEn = true →
    let idle := after (.ctlEn c false) s
    let hold := OpResult.number (s.chan c).curOut.toInt
    resultsOf steps idle = steps.map (fun _ => hold)
      ∧ ∃ u t : State,
        runInstrs (.ctlEn c false :: steps) s = .next u ∧ exec (.ctlEn c true) u = .next t
          ∧ (t.chan c).curOut = (s.chan c).curOut
          ∧ (t.chan c).iAcc.toInt = (s.chan c).curOut.toInt * 10 ^ 7
          ∧ (t.chan c).haveIn = false ∧ (t.chan c).haveErr = false
          ∧ ((s.cfg.outMinM : Int) ≤ (s.chan c).curOut.toInt →
              (s.chan c).curOut.toInt ≤ s.cfg.outMaxM →
              ∀ target actual : BitVec 16, (target.toNat : Int) = actual.toInt →
                ∃ v, exec (.pidStep c target actual) t = .next v ∧ v.ret = hold)

/-- R137, R138, line by line. -/
def Obligations.TakeBackHalfStepFollowsItsRule : Prop :=
  ∀ (c : Chan) (target actual : BitVec 16) (s : State),
    let ch := s.chan c
    let err : Int := target.toNat - actual.toInt
    let dT := if ch.haveIn = false then 0 else actual.toInt - ch.lastIn.toInt
    let out := ch.curOut.toInt + ((ch.k.x0.toNat : Int) * err).tdiv 10
    let beta : Int :=
      if (err > 0 ∧ dT > 0) ∨ (err < 0 ∧ dT < 0) then ch.k.x1.toNat else ch.k.x2.toNat
    let out := clamp (out - (beta * dT).tdiv 10) s.cfg.outMinM s.cfg.outMaxM
    let half := (out + ch.tbhPrev.toInt).tdiv 2
    let kept (v : Int) : Channel :=
      { ch with
        curOut := BitVec.ofInt 32 v, lastIn := actual, haveIn := true
        lastErr := BitVec.ofInt 32 err, haveErr := true }
    exec (.tbhStep c target actual) s =
      if ch.ctlEn = false then .next { s with ret := .number ch.curOut.toInt }
      else if ch.haveErr = true ∧ (err < 0 ↔ ¬ ch.lastErr.toInt < 0) then
        .next { s.setChan c { kept half with tbhPrev := BitVec.ofInt 32 half } with ret := .number half }
      else .next { s.setChan c (kept out) with ret := .number out }

/-- R139: along any run of Take-Back-Half steps after enabling, let `h` be the output returned at the last
sign change of the error, or the output held at enable if there was none. `tbh_prev` is `h`, and a next step
that sees the error change sign returns `(o + h) divT 2`, `o` its output after integration, damping and clamp.
The spec's own inference ("derived: from rule R138"). -/
def Obligations.TakeBackHalfAveragesWithTheLastFlip : Prop :=
  ∀ (c : Chan) (s : State) (l : List (BitVec 16 × BitVec 16)), configLegal s.cfg = true →
    (s.chan c).ctlEn = false → 0 ≤ (s.chan c).curOut.toInt → (s.chan c).curOut.toInt ≤ s.cfg.outMaxM →
    let r := lastFlipOutput c l (after (.ctlEn c true) s) (.number (s.chan c).curOut.toInt)
    let ch := r.2.chan c
    ∃ h : Int, r.1 = .number h ∧ ch.tbhPrev.toInt = h
      ∧ ∀ target actual : BitVec 16,
        let err : Int := target.toNat - actual.toInt
        let dT := if ch.haveIn = false then 0 else actual.toInt - ch.lastIn.toInt
        let out := ch.curOut.toInt + ((ch.k.x0.toNat : Int) * err).tdiv 10
        let beta : Int :=
          if (err > 0 ∧ dT > 0) ∨ (err < 0 ∧ dT < 0) then ch.k.x1.toNat else ch.k.x2.toNat
        let o := clamp (out - (beta * dT).tdiv 10) s.cfg.outMinM s.cfg.outMaxM
        ch.haveErr = true → (err < 0 ↔ ¬ ch.lastErr.toInt < 0) →
          ∃ v : State, exec (.tbhStep c target actual) r.2 = .next v
            ∧ v.ret = .number ((o + h).tdiv 2) ∧ (v.chan c).curOut.toInt = (o + h).tdiv 2
            ∧ (v.chan c).tbhPrev.toInt = (o + h).tdiv 2

/-! ## Measurement -/

/-- R28: after any history of pushes a moving average of length `n` counts the samples up to `n`, its sum is
that of the last `cnt` of them, and its average is their mean rounded down when the sum fits 32 bits. -/
def Obligations.AverageIsTheMeanOfTheWindow : Prop :=
  ∀ (n : Nat) (l : List (BitVec 32)), 0 < n →
    let m := pushAll n l
    let window := l.drop (l.length - n)
    m.cnt = min l.length n ∧ m.sum = window.sum
      ∧ ((window.map BitVec.toNat).sum < 2 ^ 32 →
          m.avg = (window.map BitVec.toNat).sum / window.length)

/-- R154: the interpolation follows the two segments' formula with the zero-denominator guard. What follows
from it, derived here: it meets the table's points, stays between the ends of each segment on it, and is an
s16. -/
def Obligations.InterpolationFollowsTheTable : Prop :=
  ∀ r : TipRecord,
    let t (i : Idx3) : Int := (r.calT.get i).toNat
    let m (i : Idx3) : Int := (r.calM.get i).toNat
    (∀ x : Int, x ≤ m .i1 → m .i1 ≠ m .i0 →
        interp3 r x = sat16 (t .i0 + ((x - m .i0) * (t .i1 - t .i0)).tdiv (m .i1 - m .i0)))
      ∧ (∀ x : Int, m .i1 < x → m .i2 ≠ m .i1 →
        interp3 r x = sat16 (t .i1 + ((x - m .i1) * (t .i2 - t .i1)).tdiv (m .i2 - m .i1)))
      ∧ (∀ x : Int, (x ≤ m .i1 → m .i1 = m .i0 → interp3 r x = t .i0)
        ∧ (m .i1 < x → m .i2 = m .i1 → interp3 r x = t .i1))
      ∧ (m .i0 < m .i1 → m .i1 < m .i2 → (∀ i, t i ≤ 32767) → ∀ i, interp3 r (m i) = t i)
      ∧ (m .i0 < m .i1 → t .i0 ≤ t .i1 → t .i1 ≤ 32767 → ∀ x, m .i0 ≤ x → x ≤ m .i1 →
          t .i0 ≤ interp3 r x ∧ interp3 r x ≤ t .i1)
      ∧ (m .i0 < m .i1 → m .i1 < m .i2 → t .i1 ≤ t .i2 → t .i2 ≤ 32767 → ∀ x, m .i1 ≤ x → x ≤ m .i2 →
          t .i1 ≤ interp3 r x ∧ interp3 r x ≤ t .i2)
      ∧ ((∀ i, t i ≤ 32767) → ∀ x, -32768 ≤ interp3 r x ∧ interp3 r x ≤ 32767)

/-- R152, R160, R161, R105, R153: the three operations that only read: the sequence before the sentinel, and
the temperature from the averages or from the latest raw samples. -/
def Obligations.MeasurementReads : Prop :=
  ∀ (c : Chan) (s : State),
    let ch := s.chan c
    let r := s.tip ch.tip.toNat
    let temp (a b j : Nat) : Int :=
      if ch.tip = 0xFF then 0
      else
        match ch.iron with
        | .t12 | .jbc => sat16 (interp3 r (tcUnits s.cfg a) + cjTemp s.cfg j)
        | .attenTweezers =>
          sat16 (interp3 r (((tcUnits s.cfg a : Int) + tcUnits s.cfg b).tdiv 2) + cjTemp s.cfg j)
        | .weller => interp3 r (ptcUnits s.cfg a)
        | .unknown | .dummy => 0
    let q := s.cfg.seq.get ch.iron
    exec (.measSeq c) s
        = .next { s with ret := .codes ([q.b0, q.b1, q.b2, q.b3].takeWhile fun m => m != 0xFF#8) }
      ∧ exec (.measTemp c) s
        = .next { s with ret := .number (temp ch.avgA.avg ch.avgB.avg ch.avgC.avg) }
      ∧ exec (.measItemp c) s
        = .next { s with ret := .number (temp ch.rawA.toNat ch.rawB.toNat ch.rawC.toNat) }

/-- R156, R157, R158: a sample goes into the slot the table of R151 gives its code, `BOOST` ignored; a code
without a slot is the trap `E_MEAS_MUX`. -/
def Obligations.SampleIntake : Prop :=
  ∀ (c : Chan) (m : BitVec 8) (raw : BitVec 16) (s : State),
    let ch := s.chan c
    let v := raw.setWidth 32
    let present := decide (raw.toNat < s.cfg.tipThreshold)
    let plain := m &&& 0xEF#8
    let couple := ch.iron = .t12 ∨ ch.iron = .jbc ∨ ch.iron = .attenTweezers
    exec (.measProc c m raw) s =
      if (couple ∧ plain = 0x04#8) ∨ (ch.iron = .weller ∧ plain = 0x08#8) then
        .next (s.setChan c { ch with avgA := ch.avgA.push v, rawA := raw, presentA := present })
      else if ch.iron = .attenTweezers ∧ plain = 0x06#8 then
        .next (s.setChan c { ch with avgB := ch.avgB.push v, rawB := raw, presentB := present })
      else if couple ∧ plain = 0x0A#8 then
        .next (s.setChan c { ch with avgC := ch.avgC.push v, rawC := raw })
      else
        .next { s with
          fatal := true, fatalCode := some .measMux
          ch0 := { s.ch0 with drive := 0 }, ch1 := { s.ch1 with drive := 0 } }

/-- R162, R140: the controller update of one channel: one step of the iron's controller on the averaged
temperature (an s16, R160), and the duty loaded from it only while the controller is enabled. -/
def Obligations.ControllerUpdate : Prop :=
  ∀ (c : Chan) (target actual : BitVec 16) (s : State), configLegal s.cfg = true →
    actual.toInt = (s.chan c).measTemp s.cfg s.tips →
    let ctl : Instr :=
      match s.cfg.ctrlKind.get (s.chan c).iron with
      | .pid => .pidStep c target actual
      | .tbh => .tbhStep c target actual
    ∃ u : State, ∃ out : Int, exec ctl s = .next u ∧ u.ret = .number out
      ∧ exec (.measUpd c target) s =
        if (s.chan c).iron = .unknown then .next s
        else if (s.chan c).ctlEn = true then
          .next (after (.dccSet c (BitVec.ofInt 32 ((out + 500).tdiv 1000))) { u with ret := s.ret })
        else .next { u with ret := s.ret }

/-- R163, R199: one tick of the modulator, the power sample, and the legs driven; a channel that is not
running is driven 0 and its counter is frozen. -/
def Obligations.DriveOperations : Prop :=
  ∀ (c : Chan) (s : State),
    let u := after (.dccAdv c) s
    let ch := u.chan c
    let legs : BitVec 2 :=
      match ch.iron with
      | .t12 | .jbc | .weller => 0b01
      | .attenTweezers => 0b11
      | .unknown | .dummy => 0b00
    let drive := if ch.on then legs else 0
    let driven := { ch with pwr := ch.pwr.push (if ch.on then pnomMw s.cfg ch.iron else 0) }
    exec (.measDrive c) s = .next { s.setChan c driven with ret := .number drive.toNat }
      ∧ exec (.chUpddrive c) s =
        if (s.chan c).state = .active ∨ (s.chan c).state = .setback ∨ (s.chan c).state = .fixedPower then
          .next (s.setChan c { driven with drive := drive })
        else .next (s.updChan c fun ch => { ch with drive := 0, pwr := ch.pwr.push 0 })

/-! ## The channel state machine -/

/-- R185: the exit action, the new state and the entry action of SetState. -/
def Obligations.StateChangePrimitive : Prop :=
  ∀ (c : Chan) (tgt : SetTarget) (s : State),
    let old := (s.chan c).state
    let new := targetState tgt
    let leaves := old.isRunning = true ∧ ¬ (old.isHeating = true ∧ new.isHeating = true)
    let s1 :=
      if leaves then
        (after (.ctlEn c false) s).updChan c fun ch => { ch with duty := 0, on := false, drive := 0 }
      else s
    let s2 := s1.updChan c fun ch => { ch with state := new }
    let on (u : State) := u.updChan c fun ch => { ch with voltSel := vselOf s.cfg ch.iron, led := true }
    exec (.chSetst c tgt) s =
      if new = old then .next s
      else
        match tgt with
        | .active =>
          let s3 := if old.isHeating = true then s2 else after (.ctlEn c true) s2
          .next ((on s3).updChan c fun ch => { ch with idleMs := 0 })
        | .setback => .next s2
        | .fixedPower =>
          let s3 := after (.dccSet c ((s.chan c).fixedDuty.setWidth 32)) (on s2)
          .next (s3.updChan c fun ch => { ch with idleMs := 0 })
        | .off | .noTool | .noTip => .next (s2.updChan c fun ch => { ch with voltSel := 0, led := false })

/-- R189, R191: an identification sample identifies a channel that is not running and is dropped otherwise,
every other sample is measured; identification is the divider, the E12 value held and the iron it selects. -/
def Obligations.SampleDispatchAndIdentification : Prop :=
  (∀ (c : Chan) (m : BitVec 8) (raw : BitVec 16) (s : State),
     exec (.chProc c m raw) s
       = .next (if m = 0x02#8 then
             (if (s.chan c).isRunning = true then s else after (.chIdent c raw) s)
           else after (.measProc c m raw) s))
    ∧ (∀ (c : Chan) (raw : BitVec 16) (s : State),
         let e :=
           if s.cfg.adcFs ≤ raw.toNat then 0
           else e12Round (s.cfg.idPullupOhms * raw.toNat / (s.cfg.adcFs - raw.toNat))
         exec (.chIdent c raw) s
           = .next (after (.chSetiron c (ironOf e))
               (s.updChan c fun ch => { ch with idOhms := BitVec.ofNat 32 e })))

/-- R192, R193: `E12Round` is the nearest of the sixty values, the lower of two equally near; so the
resistance ranges of the four iron types are exactly the rule's (the spec's own inference, "derived: from rule
R192"). -/
def Obligations.ResistorRounding : Prop :=
  ∀ r : Nat,
    let base : List Nat := [10, 12, 15, 18, 22, 27, 33, 39, 47, 56, 68, 82]
    let away (v : Nat) : Nat := ((v : Int) - r).natAbs
    (∃ b ∈ base, ∃ d, d ≤ 4 ∧ e12Round r = b * 10 ^ d)
      ∧ (∀ b ∈ base, ∀ d, d ≤ 4 →
        away (e12Round r) < away (b * 10 ^ d)
          ∨ (away (e12Round r) = away (b * 10 ^ d) ∧ e12Round r ≤ b * 10 ^ d))
      ∧ ironOf (e12Round r) =
        if 2001 ≤ r ∧ r ≤ 2450 then .t12
        else if 3001 ≤ r ∧ r ≤ 3600 then .jbc
        else if 5151 ≤ r ∧ r ≤ 6200 then .attenTweezers
        else if 9101 ≤ r ∧ r ≤ 11000 then .weller
        else .unknown

/-- R194, R155: an iron change, always through `Unknown`. -/
def Obligations.IronChange : Prop :=
  ∀ (c : Chan) (t : Iron) (s : State),
    let old := (s.chan c).iron
    let s1 :=
      if old = .unknown then s
      else
        let u :=
          if (s.chan c).state = .overload then s.updChan c fun ch => { ch with voltSel := 0, led := false }
          else after (.chSetst c .noTool) s
        u.updChan c fun ch => freshBlock s.cfg { ch with iron := .unknown, tip := 0xFF }
    let s2 := after (.chTipsel c) (s1.updChan c fun ch => freshBlock s.cfg { ch with iron := t })
    let s3 := if (s2.chan c).tip = 0xFF then s2 else after (.ctlLoad c (s2.chan c).tip) s2
    exec (.chSetiron c t) s
      = .next (if t = old then
            (if t = .unknown ∧ (s.chan c).state = .off then after (.chSetst c .noTool) s else s)
          else if t = .unknown then s1
          else if (s3.chan c).state = .noTool then after (.chSetst c .off) s3
          else s3)

/-- R195, R253: tip selection: the last tip of the iron's type, else the lowest allocated one of that type,
else the default tip's record, its own or newly made in the lowest free slot; none if the pool is full. -/
def Obligations.TipSelection : Prop :=
  ∀ (c : Chan) (s : State),
    let ch := s.chan c
    let fits (r : TipRecord) : Bool := r.name != 0xFFFF && tipNameIron s.cfg r.name == ch.iron
    let st := ch.selectedTip.toNat
    let n := defaultTip s.cfg ch.iron
    let take (i : Nat) (tips : List TipRecord) : State :=
      { s.setChan c { ch with tip := BitVec.ofNat 8 i, selectedTip := BitVec.ofNat 16 i } with
        tips := tips }
    exec (.chTipsel c) s =
      if st < s.cfg.numTipSettings ∧ fits (s.tip st) = true then .next (take st s.tips)
      else
        match s.tips.findIdx? fits with
        | some i => .next (take i s.tips)
        | none =>
          match s.tips.findIdx? fun r => r.name == n with
          | some i => .next (take i s.tips)
          | none =>
            match s.tips.findIdx? fun r => r.name == 0xFFFF with
            | some i => .next (take i (s.tips.set i (defaultRecord s.cfg n)))
            | none => .next (s.setChan c { ch with tip := 0xFF })

/-- R197: the idle timer saturates; safety-off before setback. -/
def Obligations.IdleTimer : Prop :=
  ∀ (c : Chan) (ms : BitVec 32) (s : State),
    let total := min ((s.chan c).idleMs.toNat + ms.toNat) (2 ^ 32 - 1)
    let s1 := s.updChan c fun ch => { ch with idleMs := BitVec.ofNat 32 total }
    exec (.chIdle c ms) s
      = .next (if (s.chan c).state.isRunning = true ∧ (s.chan c).safetyOffTime.toNat * 1000 ≤ total then
            after (.chSetst c .off) s1
          else if (s.chan c).state = .active ∧ (s.chan c).setbackTime.toNat * 1000 ≤ total then
            after (.chSetst c .setback) s1
          else s1)

/-- R198, R229: the overload shutdown of one channel, and the overcurrent event, which runs it on both and
requests a refresh. -/
def Obligations.OverloadShutdown : Prop :=
  let shut (ch : Channel) : Channel :=
    { ch with state := .overload, ctlEn := false, duty := 0, on := false, drive := 0 }
  (∀ (c : Chan) (s : State), exec (.chOverload c) s = .next (s.updChan c shut))
    ∧ ∀ s : State,
      exec .evOc s =
        if s.fatal = true then .next s
        else .next { s with ch0 := shut s.ch0, ch1 := shut s.ch1, refreshReq := true }

/-! ## The scheduler -/

/-- R310, R65, R312: EV.RST puts every element, output pin and latch at its reset value; the parameters and
the platform's two level pins stay. -/
def Obligations.ResetLeavesResetValues : Prop :=
  ∀ s : State, ∃ t : State, exec .evRst s = .next t
    ∧ t = { t with
        cfg := s.cfg, chipTempIn := s.chipTempIn, rst := s.rst
        ctlEnabled := false, fatal := false, fatalCode := none, overrun := false, cmdErr := false
        cmdCode := none, resp := 0, respOk := true, timerArmed := false, adcBusy := false
        refreshCnt := 0, reportCnt := 0, refreshReq := false, logReq := false, chipTemp := 0
        qLen := 0, qIdx := 0, adcMux := 0xFF, adcStart := false, tmrArm := false
        tips := List.replicate s.cfg.numTipSettings
          { name := 0xFFFF, flags := 0, calT := ⟨0, 0, 0⟩, calM := ⟨0, 0, 0⟩, k := ⟨0, 0, 0, 0⟩ }
        pend := { rst := false, oc := false, zc := false, tmr := false, adc := none, cmd := none } }
    ∧ (∀ i, i < 8 → t.qAt i = 0xFF)
    ∧ ∀ c, t.chan c =
      { state := .off, iron := .unknown, userTemp := 0, curTemp := 0, preset := .i0, idleMs := 0
        tip := 0xFF, identCnt := 0, idOhms := 0, fixedDuty := 0, drive := 0, voltSel := 0, led := false
        presets := ⟨0, 0, 0⟩, setbackTemp := 0, setbackTime := 0, safetyOffTime := 0
        selectedTip := 0xFFFF
        avgA := .empty s.cfg.avgLen, avgB := .empty s.cfg.avgLen, avgC := .empty s.cfg.avgLen
        rawA := 0, rawB := 0, rawC := 0, presentA := false, presentB := false
        pwr := .empty s.cfg.pwrAvgLen
        k := ⟨0, 0, 0, 0⟩, ctlEn := false, curOut := 0, iAcc := 0, lastIn := 0, haveIn := false
        lastErr := 0, haveErr := false, tbhPrev := 0, duty := 0, acc := 0, on := false }

/-- R221, R231: a zero crossing clears the drives, counts, and starts an interval or notes an overrun. -/
def Obligations.ZeroCrossing : Prop :=
  ∀ s : State,
    let refresh := decide (s.cfg.refreshInterval ≤ s.refreshCnt.toNat + 1)
    let report := decide (s.cfg.reportInterval ≤ s.reportCnt.toNat + 1)
    let u := { s with
      ch0 := { s.ch0 with drive := 0 }, ch1 := { s.ch1 with drive := 0 }
      refreshCnt := if refresh then 0 else s.refreshCnt + 1
      refreshReq := s.refreshReq || refresh
      reportCnt := if report then 0 else s.reportCnt + 1
      logReq := s.logReq || report }
    exec .evZc s =
      if s.fatal = true then .next s
      else if s.ctlEnabled = false then .next u
      else if s.timerArmed = true ∨ s.adcBusy = true then .next { u with overrun := true }
      else .next { u with timerArmed := true, tmrArm := true }

/-- R222, R223: the timer's expiry builds the queue and starts the first conversion, or updates at once when
there is none; an expiry without an armed timer is ignored. -/
def Obligations.TimerExpiry : Prop :=
  ∀ s : State,
    let u := after .seqBuild { s with timerArmed := false }
    exec .evTmr s
      = .next (if s.fatal = true ∨ s.timerArmed = false then s
          else if u.qLen = 0 then after .ctrlUpdate u
          else after .seqNext u)

/-- R224, R227, R190: the queue of one interval and the identification counters; and the start of one
conversion, the tag driven being the queue entry. -/
def Obligations.SequenceBuiltAndStarted : Prop :=
  (∀ s : State,
      let due (ch : Channel) : Bool :=
        !ch.isRunning && decide (s.cfg.identInterval ≤ ch.identCnt.toNat + 1)
      let count (ch : Channel) : Channel :=
        { ch with identCnt := if ch.isRunning || due ch then 0 else ch.identCnt + 1 }
      let part (c : Chan) : List MuxCode :=
        (if due (s.chan c) then [0x02#8] else seqCodes (s.cfg.seq.get (s.chan c).iron)).map
          fun m => muxTag m c
      let l := part .ch0 ++ part .ch1
      ∃ q : Vector MuxCode 8,
        exec .seqBuild s
            = .next { s with
                ch0 := count s.ch0, ch1 := count s.ch1
                q := q, qLen := BitVec.ofNat 4 l.length, qIdx := 0 }
          ∧ ∀ i (_ : i < 8), q[i] = l.getD i 0xFF)
    ∧ ∀ s : State,
      exec .seqNext s
        = .next { s with adcMux := s.qAt s.qIdx.toNat, adcBusy := true, adcStart := true }

/-- R225, R226: a completion. -/
def Obligations.ConversionComplete : Prop :=
  ∀ (tag : BitVec 8) (raw : BitVec 16) (s : State), raw.toNat ≤ s.cfg.adcFs →
    let u := after (.chProc (if tag.getLsbD 0 then .ch1 else .ch0) (tag &&& 0xFE#8) raw)
      { s with adcBusy := false }
    exec (.evAdc tag raw) s
      = .next (if s.fatal = true then s
          else if s.adcBusy = false ∨ tag ≠ s.qAt s.qIdx.toNat then
            { s with
              fatal := true, fatalCode := some .adcDesync
              ch0 := { s.ch0 with drive := 0 }, ch1 := { s.ch1 with drive := 0 } }
          else if u.fatal = true then u
          else if (s.qIdx + 1).toNat < s.qLen.toNat then after .seqNext { u with qIdx := s.qIdx + 1 }
          else after .ctrlUpdate { u with qIdx := 0 })

/-- R228: the control update, channel 0 first. -/
def Obligations.ControlUpdate : Prop :=
  ∀ s : State, s.cfg.idleTickMs < 2 ^ 32 →
    exec .ctrlUpdate s = .next (updateTurn .ch1 (updateTurn .ch0 s))

/-- R283: the trap latches its code, drives both channels 0 and keeps everything else; (2), (3), (6): while the
machine is halted an event changes nothing, a host command but REG.RD is rejected with `E_HALTED`, REG.RD
answers and writes the response only, and reset leaves the halt. -/
def Obligations.TrapHaltsTheMachine : Prop :=
  (∀ (code : FatalCause) (s : State),
     exec (.trapFatal code) s
       = .next { s with
           fatal := true, fatalCode := some code
           ch0 := { s.ch0 with drive := 0 }, ch1 := { s.ch1 with drive := 0 } })
    ∧ (∀ (i : Instr) (s : State), s.fatal = true → i.issuable = true → WellFormed s.cfg i = true →
         match i with
         | .evRst => exec i s = .next (State.resetWith s.cfg s.chipTempIn s.rst)
         | .evZc | .evTmr | .evOc | .evAdc _ _ => exec i s = .next s
         | .regRd _ => exec i s = .next (s.reject .addr) ∨ ∃ v, exec i s = .next (s.accept v)
         | _ => exec i s = .next (s.reject .halted))

/-- R235, R236, R237, R239. -/
def Obligations.SchedulerCommands : Prop :=
  ∀ s : State,
    let offTarget (ch : Channel) : SetTarget := if ch.iron = .unknown then .noTool else .off
    let disabled :=
      after (.chSetst .ch1 (offTarget s.ch1)) (after (.chSetst .ch0 (offTarget s.ch0)) { s with ctlEnabled := false })
    let halted := s.reject .halted
    exec .ctlEnable s = .next (if s.fatal then halted else { s with ctlEnabled := true }.accept 0)
      ∧ exec .ctlDisable s = .next (if s.fatal then halted else disabled.accept 0)
      ∧ exec .ctlToggle s
        = .next (if s.fatal then halted
            else if s.ctlEnabled then disabled.accept 0 else { s with ctlEnabled := true }.accept 1)
      ∧ exec .ctlChiptemp s
        = .next (if s.fatal then halted
            else { s with chipTemp := s.chipTempIn }.accept (s.chipTempIn.signExtend 32))

/-! ## Host commands on a channel -/

/-- R200, R205: the host switches a channel on, off, or to a fixed duty; the guards in their order. -/
def Obligations.SwitchOnOffAndFixedPower : Prop :=
  (∀ (c : Chan) (idx : BitVec 4) (s : State),
     let ch := s.chan c
     let s1 := s.updChan c fun ch => { ch with idleMs := 0 }
     let offTarget : SetTarget := if ch.iron = .unknown then .noTool else .off
     exec (.chSetstate c idx) s
       = .next (if s.fatal then s.reject .halted
           else if idx ≠ 0 ∧ idx ≠ 2 then s.reject .range
           else if idx = 0 then (after (.chSetst c offTarget) s1).accept 0
           else if s.ctlEnabled = false then s.reject .disabled
           else if ch.iron = .unknown then s.reject .noIron
           else if ch.tip = 0xFF then s.reject .noTip
           else if ch.state = .overload ∨ ch.state = .noTip then s.reject .state
           else (after (.chSetst c .active) s1).accept 0))
    ∧ (∀ (c : Chan) (d : BitVec 32) (s : State),
         let ch := s.chan c
         let s1 := s.updChan c fun ch => { ch with fixedDuty := d.setWidth 7, idleMs := 0 }
         exec (.chFixedpwr c d) s
           = .next (if s.fatal then s.reject .halted
               else if 100 < d.toNat then s.reject .range
               else if s.ctlEnabled = false then s.reject .disabled
               else if ch.iron = .unknown then s.reject .noIron
               else if ch.state = .overload ∨ ch.state = .noTip then s.reject .state
               else if ch.state = .fixedPower then (after (.dccSet c d) s1).accept 0
               else (after (.chSetst c .fixedPower) s1).accept 0))

/-- R187, R201, R202, R204: the user interactions that set the temperature, move the preset on, or only
count. -/
def Obligations.UserInteractions : Prop :=
  ∀ (c : Chan) (s : State),
    (∀ t : BitVec 32,
        exec (.chSettemp c t) s
          = .next (if s.fatal then s.reject .halted
              else if 32767 < t.toNat then s.reject .range
              else (interactTurn c (s.updChan c fun ch =>
                { ch with userTemp := t.setWidth 16 })).accept 0))
      ∧ (∃ p : Idx3, p.num = ((s.chan c).preset.num + 1) % 3
        ∧ exec (.chNextpreset c) s
          = .next (if s.fatal then s.reject .halted
              else (interactTurn c (s.updChan c fun ch =>
                { ch with preset := p, userTemp := ch.presets.get p })).accept (BitVec.ofNat 32 p.num)))
      ∧ exec (.chInteract c) s
        = .next (if s.fatal then s.reject .halted else (interactTurn c s).accept 0)

/-- R203. -/
def Obligations.ChangeOfTip : Prop :=
  ∀ (c : Chan) (slot : BitVec 32) (s : State),
    let ch := s.chan c
    let i := slot.toNat
    exec (.chChangetip c slot) s
      = .next (if s.fatal then s.reject .halted
          else if s.cfg.numTipSettings ≤ i ∨ (s.tip i).name = 0xFFFF then s.reject .slot
          else if ch.iron = .unknown then s.reject .noIron
          else if tipNameIron s.cfg (s.tip i).name ≠ ch.iron then
            (after (.trapFatal .tipMismatch) s).reject .halted
          else
            (interactTurn c (s.updChan c fun ch =>
              { ch with
                tip := BitVec.ofNat 8 i, selectedTip := BitVec.ofNat 16 i, k := (s.tip i).k })).accept 0)

/-- R206, R207, R208, R209, R210, R169, R33, R35: the queries answer and change nothing but the response. -/
def Obligations.ChannelQueries : Prop :=
  ∀ (c : Chan) (s : State),
    let ch := s.chan c
    let answer (v : BitVec 32) : Host.Outcome State Fault Refusal :=
      .next (if s.fatal then s.reject .halted else { s with resp := v, respOk := true })
    exec (.chGetstate c) s
        = answer (match ch.state with
          | .off => 0 | .noTool => 1 | .active => 2 | .setback => 3 | .overload => 4 | .noTip => 5
          | .fixedPower => 6)
      ∧ exec (.chGetcur c) s = answer (ch.curTemp.signExtend 32)
      ∧ exec (.chGettgt c) s
        = answer (BitVec.ofNat 32 (if ch.state = .setback then min ch.setbackTemp.toNat ch.userTemp.toNat
            else ch.userTemp.toNat))
      ∧ exec (.chGetpwr c) s = answer (BitVec.ofNat 32 ch.pwr.avg)
      ∧ exec (.chIsmod c) s = answer (if ch.userTemp = ch.presets.get ch.preset then 0 else 1)
      ∧ exec (.calInst c) s = answer (BitVec.ofInt 32 (ch.measItemp s.cfg s.tips))

/-! ## Calibration -/

/-- R165: a plausible reading is recorded with the index's fixed temperature, an implausible one answers 0
and records nothing. -/
def Obligations.CalibrationPointSaved : Prop :=
  ∀ (c : Chan) (idx : BitVec 4) (s : State),
    let ch := s.chan c
    let n := ch.tip.toNat
    let cj := cjTemp s.cfg ch.avgC.avg
    let coupleOk (v : Nat) : Bool := decide (500 ≤ v ∧ v ≤ 12000 ∧ 0 ≤ cj ∧ cj ≤ 600)
    let reading : Nat × Bool :=
      match ch.iron with
      | .t12 | .jbc => let v := tcUnits s.cfg ch.avgA.avg; (v, coupleOk v)
      | .attenTweezers =>
        let v := (tcUnits s.cfg ch.avgA.avg + tcUnits s.cfg ch.avgB.avg) / 2
        (v, coupleOk v)
      | .weller =>
        let v := ptcUnits s.cfg ch.avgA.avg
        (v, decide (s.cfg.calRMin ≤ v ∧ v ≤ s.cfg.calRMax))
      | .unknown | .dummy => (0, false)
    let saved (p : Idx3) (t : BitVec 16) : State :=
      { s with
        tips := s.tips.set n
          { s.tip n with
            calT := (s.tip n).calT.set p t
            calM := (s.tip n).calM.set p (BitVec.ofNat 32 reading.1) } }
    let save (p : Idx3) (t : BitVec 16) : State :=
      if ch.tip = 0xFF then s.reject .noTip
      else if reading.2 then (saved p t).accept 1 else s.accept 0
    exec (.calSave c idx) s
      = .next (if s.fatal then s.reject .halted
          else if idx = 0 then save .i0 2500
          else if idx = 1 then save .i1 3250
          else if idx = 2 then save .i2 4000
          else s.reject .range)

/-- R166, R167, R168, R170: setting a point and reading it back; the two reads after a set return exactly
what was set (the spec's own inference in R170). -/
def Obligations.CalibrationRoundTrip : Prop :=
  (∀ (c : Chan) (p : Idx3) (idx : BitVec 4) (t : BitVec 16) (m : BitVec 32) (s : State),
      idx.toNat = p.num →
      let n := (s.chan c).tip.toNat
      exec (.calSet c idx t m) s
          = .next (if s.fatal then s.reject .halted
              else if 32767 < t.toNat ∨ 16777215 < m.toNat then s.reject .range
              else if (s.chan c).tip = 0xFF then s.reject .noTip
              else { s with
                tips := s.tips.set n
                  { s.tip n with
                    calT := (s.tip n).calT.set p t, calM := (s.tip n).calM.set p m } }.accept 0)
        ∧ exec (.calGett c idx) s
          = .next (if s.fatal then s.reject .halted
              else if (s.chan c).tip = 0xFF then s.reject .noTip
              else s.accept (((s.tip n).calT.get p).setWidth 32))
        ∧ exec (.calGetm c idx) s
          = .next (if s.fatal then s.reject .halted
              else if (s.chan c).tip = 0xFF then s.reject .noTip
              else s.accept ((s.tip n).calM.get p)))
    ∧ (∀ (c : Chan) (idx : BitVec 4) (t : BitVec 16) (m : BitVec 32) (s : State), 2 < idx.toNat →
      s.fatal = false →
      exec (.calSet c idx t m) s = .next (s.reject .range)
        ∧ exec (.calGett c idx) s = .next (s.reject .range)
        ∧ exec (.calGetm c idx) s = .next (s.reject .range))
    ∧ ∀ (c : Chan) (idx : BitVec 4) (t : BitVec 16) (m : BitVec 32) (s u : State), idx.toNat ≤ 2 →
      t.toNat ≤ 32767 → m.toNat ≤ 16777215 → s.fatal = false → (s.chan c).tip.toNat < s.tips.length →
      (s.chan c).tip ≠ 0xFF → exec (.calSet c idx t m) s = .next u →
      exec (.calGett c idx) u = .next (u.accept (t.setWidth 32))
        ∧ exec (.calGetm c idx) u = .next (u.accept m)

/-! ## The tip pool and the registers -/

/-- R253 and R252, R254, R255: the commands of the tip pool. -/
def Obligations.TipPoolCommands : Prop :=
  (∀ (n : BitVec 16) (s : State),
     let iron := tipNameIron s.cfg n
     exec (.tipAlloc n) s
       = .next (if s.fatal then s.reject .halted
           else if s.cfg.numTipNames ≤ n.toNat then s.reject .range
           else
             match s.tips.findIdx? fun r => r.name == n with
             | some i => s.accept (BitVec.ofNat 32 i)
             | none =>
               match s.tips.findIdx? fun r => r.name == 0xFFFF with
               | none => s.reject .full
               | some i =>
                 { s with
                   tips := s.tips.set i
                     { name := n, flags := 0, calT := ⟨2500, 3250, 4000⟩
                       calM := s.cfg.defaultCal.get Config.unknownCal iron
                       k := s.cfg.defaultPid.get iron } }.accept (BitVec.ofNat 32 i)))
    ∧ (∀ (slot : BitVec 16) (s : State),
         let i := slot.toNat
         let uses (ch : Channel) : Prop := ch.tip ≠ 0xFF ∧ ch.tip.toNat = i
         let forget (ch : Channel) : Channel :=
           if ch.selectedTip = slot then { ch with selectedTip := 0xFFFF } else ch
         exec (.tipFree slot) s
           = .next (if s.fatal then s.reject .halted
               else if s.cfg.numTipSettings ≤ i ∨ (s.tip i).name = 0xFFFF then s.reject .slot
               else if uses s.ch0 ∨ uses s.ch1 then s.reject .inUse
               else
                 { s with
                   ch0 := forget s.ch0, ch1 := forget s.ch1
                   tips := s.tips.set i
                     { name := 0xFFFF, flags := 0, calT := ⟨0, 0, 0⟩, calM := ⟨0, 0, 0⟩
                       k := ⟨0, 0, 0, 0⟩ } }.accept 0))
    ∧ (∀ (n : BitVec 16) (s : State),
         exec (.tipFind n) s
           = .next (if s.fatal then s.reject .halted
               else if s.cfg.numTipNames ≤ n.toNat then s.reject .range
               else
                 match s.tips.findIdx? fun r => r.name == n with
                 | some i => s.accept (BitVec.ofNat 32 i)
                 | none => s.accept 0xFFFF))

/-- R270, R51, R53, R76, R281, R284: the global registers and their bits with the two code tables, the registers
of a tip record, and the addresses outside the channel blocks that are no register. -/
def Obligations.GlobalAndTipRegistersRead : Prop :=
  (∀ s : State,
     (∃ v, exec (.regRd 0x0000) s = .next (s.accept v)
         ∧ v.getLsbD 0 = s.ctlEnabled ∧ v.getLsbD 1 = s.fatal
         ∧ v.extractLsb' 2 3 = (match s.fatalCode with
           | none => 0 | some .tipMismatch => 1 | some .adcDesync => 2 | some .measMux => 3)
         ∧ v.getLsbD 5 = s.overrun ∧ v.getLsbD 6 = s.timerArmed ∧ v.getLsbD 7 = s.adcBusy
         ∧ v.getLsbD 8 = s.refreshReq ∧ v.getLsbD 9 = s.logReq ∧ v.getLsbD 10 = s.cmdErr
         ∧ v.extractLsb' 11 4 = (match s.cmdCode with
           | none => 0 | some .illegal => 1 | some .addr => 2 | some .ro => 3 | some .range => 4
           | some .state => 5 | some .noTip => 6 | some .slot => 7 | some .full => 8 | some .disabled => 9
           | some .noIron => 10 | some .halted => 11 | some .inUse => 12)
         ∧ v.extractLsb' 15 17 = 0)
       ∧ (∃ v, exec (.regRd 0x0001) s = .next (s.accept v)
         ∧ v.extractLsb' 0 4 = s.qIdx ∧ v.extractLsb' 4 4 = 0 ∧ v.extractLsb' 8 4 = s.qLen
         ∧ v.extractLsb' 12 20 = 0)
       ∧ exec (.regRd 0x0002) s = .next (s.accept (s.refreshCnt.setWidth 32))
       ∧ exec (.regRd 0x0003) s = .next (s.accept (s.reportCnt.setWidth 32))
       ∧ exec (.regRd 0x0004) s = .next (s.accept (s.chipTemp.signExtend 32))
       ∧ exec (.regRd 0x0005) s = .next (s.reject .addr)
       ∧ (∀ i (_ : i < 8), exec (.regRd (0x0010 + BitVec.ofNat 16 i)) s
           = .next (s.accept (s.q[i].setWidth 32)))
       ∧ ∀ a : BitVec 16, 6 ≤ a.toNat → a.toNat < 0x100 → ¬ (0x10 ≤ a.toNat ∧ a.toNat < 0x18) →
         exec (.regRd a) s = .next (s.reject .addr))
    ∧ (∀ s : State, s.cfg.numTipSettings ≤ 64 →
         (∀ (i : Nat), i < s.cfg.numTipSettings →
             let r := s.tip i
             let reads (o : Nat) (v : BitVec 32) : Prop :=
               exec (.regRd (BitVec.ofNat 16 (0x0400 + 0x10 * i + o))) s = .next (s.accept v)
             reads 0x0 (r.name.setWidth 32) ∧ reads 0x1 (r.flags.setWidth 32)
               ∧ reads 0x2 (r.calT.x0.setWidth 32) ∧ reads 0x3 r.calM.x0
               ∧ reads 0x4 (r.calT.x1.setWidth 32) ∧ reads 0x5 r.calM.x1
               ∧ reads 0x6 (r.calT.x2.setWidth 32) ∧ reads 0x7 r.calM.x2
               ∧ reads 0x8 r.k.x0 ∧ reads 0x9 r.k.x1 ∧ reads 0xA r.k.x2 ∧ reads 0xB r.k.x3)
           ∧ ∀ a : BitVec 16, 0x300 ≤ a.toNat →
             (a.toNat < 0x400 ∨ 0x400 + 0x10 * s.cfg.numTipSettings ≤ a.toNat ∨ 0xC ≤ a.toNat % 0x10) →
             exec (.regRd a) s = .next (s.reject .addr))

/-- R270, R52, R33, R34, R35: the registers of a channel and the status bits with the code tables and the
derived views. -/
def Obligations.ChannelRegistersRead : Prop :=
  ∀ (c : Chan) (s : State),
    let ch := s.chan c
    let base : BitVec 16 := match c with | .ch0 => 0x0100 | .ch1 => 0x0200
    let reads (o : BitVec 16) (v : BitVec 32) : Prop := exec (.regRd (base + o)) s = .next (s.accept v)
    (∃ v, reads 0x00 v
        ∧ v.extractLsb' 0 3 = (match ch.state with
          | .off => 0 | .noTool => 1 | .active => 2 | .setback => 3 | .overload => 4 | .noTip => 5
          | .fixedPower => 6)
        ∧ v.getLsbD 3 = false
        ∧ v.extractLsb' 4 3 = (match ch.iron with
          | .unknown => 0 | .t12 => 1 | .jbc => 2 | .attenTweezers => 3 | .weller => 4 | .dummy => 5)
        ∧ v.getLsbD 7 = false
        ∧ v.getLsbD 8 = (match ch.iron with
          | .t12 | .jbc | .weller => ch.presentA
          | .attenTweezers => ch.presentA && ch.presentB
          | .unknown | .dummy => false)
        ∧ v.getLsbD 9 = ch.led ∧ v.extractLsb' 10 2 = ch.drive
        ∧ v.extractLsb' 12 2 = ch.voltSel
        ∧ v.getLsbD 14 = decide (ch.userTemp ≠ ch.presets.get ch.preset)
        ∧ v.getLsbD 15 = ch.ctlEn ∧ v.getLsbD 16 = ch.on ∧ v.extractLsb' 17 15 = 0)
      ∧ reads 0x01 (ch.userTemp.setWidth 32)
      ∧ reads 0x02 (if ch.state = .setback then BitVec.ofNat 32 (min ch.setbackTemp.toNat ch.userTemp.toNat)
          else ch.userTemp.setWidth 32)
      ∧ reads 0x03 (ch.curTemp.signExtend 32) ∧ reads 0x04 ch.idleMs
      ∧ reads 0x05 (match ch.preset with | .i0 => 0 | .i1 => 1 | .i2 => 2) ∧ reads 0x06 (ch.tip.setWidth 32)
      ∧ reads 0x07 (BitVec.ofNat 32 ch.pwr.avg)
      ∧ (∃ v, reads 0x08 v ∧ v.extractLsb' 0 7 = ch.duty ∧ v.extractLsb' 8 7 = ch.acc
        ∧ v.extractLsb' 16 7 = BitVec.ofNat 7 (s.cfg.dccUpper.get ch.iron)
        ∧ v.getLsbD 7 = false ∧ v.getLsbD 15 = false ∧ v.extractLsb' 23 9 = 0)
      ∧ reads 0x09 ch.curOut ∧ reads 0x0A (ch.iAcc.extractLsb' 0 32) ∧ reads 0x0B (ch.iAcc.extractLsb' 32 32)
      ∧ reads 0x0C (BitVec.ofNat 32 ch.avgA.avg) ∧ reads 0x0D (BitVec.ofNat 32 ch.avgB.avg)
      ∧ reads 0x0E (BitVec.ofNat 32 ch.avgC.avg) ∧ reads 0x0F ch.idOhms
      ∧ reads 0x10 (ch.presets.x0.setWidth 32) ∧ reads 0x11 (ch.presets.x1.setWidth 32)
      ∧ reads 0x12 (ch.presets.x2.setWidth 32) ∧ reads 0x13 (ch.setbackTemp.setWidth 32)
      ∧ reads 0x14 (ch.setbackTime.setWidth 32) ∧ reads 0x15 (ch.safetyOffTime.setWidth 32)
      ∧ reads 0x16 (ch.selectedTip.setWidth 32) ∧ reads 0x17 (ch.fixedDuty.setWidth 32)
      ∧ reads 0x18 (ch.identCnt.setWidth 32)
      ∧ ∀ o : BitVec 16, 0x19 ≤ o.toNat → o.toNat ≤ 0xFF →
        exec (.regRd (base + o)) s = .next (s.reject .addr)

/-- R271, with the legal values of R51 to R53, the access rights of R54 and the addresses of R76 written out:
REG.WR at every address, which registers are read-only, which addresses are no register, and for each writable
one its legal values and the one field written. `E_HALTED` comes before every other rejection, `E_RANGE` before
`E_INUSE`. -/
def Obligations.RegisterWrite : Prop :=
  ∀ (v : BitVec 32) (s : State),
    let n := v.toNat
    let rejects (a : BitVec 16) (code : RejectCode) : Prop :=
      exec (.regWr a v) s = .next (s.reject (if s.fatal = true then .halted else code))
    let writes (a : BitVec 16) (legal : Bool) (t : State) : Prop :=
      exec (.regWr a v) s
        = .next (if s.fatal = true then s.reject .halted
            else if legal = true then { t with resp := 0, respOk := true } else s.reject .range)
    (∀ a : BitVec 16, a.toNat ≤ 4 ∨ (0x10 ≤ a.toNat ∧ a.toNat ≤ 0x17) → rejects a .ro)
      ∧ writes 0x0005 (v &&& ~~~0x720 == 0)
        { s with
          overrun := if v.getLsbD 5 then false else s.overrun
          refreshReq := if v.getLsbD 8 then false else s.refreshReq
          logReq := if v.getLsbD 9 then false else s.logReq
          cmdErr := if v.getLsbD 10 then false else s.cmdErr
          cmdCode := if v.getLsbD 10 then none else s.cmdCode }
      ∧ (∀ a : BitVec 16,
        (0x06 ≤ a.toNat ∧ a.toNat ≤ 0x0F) ∨ (0x18 ≤ a.toNat ∧ a.toNat ≤ 0xFF)
          ∨ (0x119 ≤ a.toNat ∧ a.toNat ≤ 0x1FF) ∨ (0x219 ≤ a.toNat ∧ a.toNat ≤ 0x3FF) →
        rejects a .addr)
      ∧ (∀ c : Chan,
        let ch := s.chan c
        let base : BitVec 16 := match c with | .ch0 => 0x0100 | .ch1 => 0x0200
        let put (o : BitVec 16) (legal : Bool) (x : Channel) : Prop := writes (base + o) legal (s.setChan c x)
        (∀ o : BitVec 16, o.toNat ≤ 0x0F ∨ o = 0x17 ∨ o = 0x18 → rejects (base + o) .ro)
          ∧ put 0x10 (n ≤ 32767) { ch with presets := { ch.presets with x0 := v.setWidth 16 } }
          ∧ put 0x11 (n ≤ 32767) { ch with presets := { ch.presets with x1 := v.setWidth 16 } }
          ∧ put 0x12 (n ≤ 32767) { ch with presets := { ch.presets with x2 := v.setWidth 16 } }
          ∧ put 0x13 (n ≤ 32767) { ch with setbackTemp := v.setWidth 16 }
          ∧ put 0x14 (n ≤ 65535) { ch with setbackTime := v.setWidth 16 }
          ∧ put 0x15 (n ≤ 65535) { ch with safetyOffTime := v.setWidth 16 }
          ∧ put 0x16 (n < s.cfg.numTipSettings || n = 0xFFFF) { ch with selectedTip := v.setWidth 16 })
      ∧ ∀ a : BitVec 16, 0x400 ≤ a.toNat →
        let slot := (a.toNat - 0x400) / 0x10
        let r := s.tip slot
        let put (legal : Bool) (x : TipRecord) : Prop :=
          writes a legal { s with tips := s.tips.set slot x }
        let uses (ch : Channel) : Prop := ch.tip ≠ 0xFF ∧ ch.tip.toNat = slot
        if s.cfg.numTipSettings ≤ slot then rejects a .addr
        else
          match a.toNat % 0x10 with
          | 0x0 =>
            exec (.regWr a v) s
              = .next (if s.fatal = true then s.reject .halted
                  else if ¬ (n < s.cfg.numTipNames ∨ n = 0xFFFF) then s.reject .range
                  else if uses s.ch0 ∨ uses s.ch1 then s.reject .inUse
                  else
                    { s with
                      tips := s.tips.set slot { r with name := v.setWidth 16 }, resp := 0, respOk := true })
          | 0x1 => put (n ≤ 3) { r with flags := v.setWidth 2 }
          | 0x2 => put (n ≤ 32767) { r with calT := { r.calT with x0 := v.setWidth 16 } }
          | 0x3 => put (n ≤ 16777215) { r with calM := { r.calM with x0 := v } }
          | 0x4 => put (n ≤ 32767) { r with calT := { r.calT with x1 := v.setWidth 16 } }
          | 0x5 => put (n ≤ 16777215) { r with calM := { r.calM with x1 := v } }
          | 0x6 => put (n ≤ 32767) { r with calT := { r.calT with x2 := v.setWidth 16 } }
          | 0x7 => put (n ≤ 16777215) { r with calM := { r.calM with x2 := v } }
          | 0x8 => put (n ≤ 1000000) { r with k := { r.k with x0 := v } }
          | 0x9 => put (n ≤ 1000000) { r with k := { r.k with x1 := v } }
          | 0xA => put (n ≤ 1000000) { r with k := { r.k with x2 := v } }
          | 0xB => put (n ≤ 1000000) { r with k := { r.k with x3 := v } }
          | _ => rejects a .addr

/-- R271, R50, R270: a value REG.WR accepts into a readable register is what REG.RD of that register then
returns, for every register and value. -/
def Obligations.RegisterWriteThenRead : Prop :=
  ∀ (a : BitVec 16) (v : BitVec 32) (s t : State), configLegal s.cfg = true → s.poolWf = true → a ≠ 0x0005 →
    exec (.regWr a v) s = .next t → t.respOk = true → exec (.regRd a) t = .next (t.accept v)
end

