-- ==== Sys2Proof/Laws/Legal.lean ====
section
/-! SUPPORT. What a legal configuration satisfies (00_scope.md R8, R9), projected out of `configLegal`. -/

namespace Sys2Proof.Machine

/-- What a legal configuration is known to satisfy, field by field (R8, R9, R105, R251). -/
structure CfgFacts (cfg : Config) : Prop where
  adc : 8 ≤ cfg.adcBits ∧ cfg.adcBits ≤ 16
  avg : 1 ≤ cfg.avgLen ∧ cfg.avgLen ≤ 64
  pavg : 1 ≤ cfg.pwrAvgLen ∧ cfg.pwrAvgLen ≤ 256
  out : cfg.outMinM < cfg.outMaxM ∧ cfg.outMaxM ≤ 100000
  tick : 1 ≤ cfg.idleTickMs ∧ cfg.idleTickMs ≤ 1000
  ident : 1 ≤ cfg.identInterval ∧ cfg.identInterval ≤ 255
  refresh : 1 ≤ cfg.refreshInterval ∧ cfg.refreshInterval ≤ 65535
  report : 1 ≤ cfg.reportInterval ∧ cfg.reportInterval ≤ 65535
  slots : 1 ≤ cfg.numTipSettings ∧ cfg.numTipSettings ≤ 64
  names : 1 ≤ cfg.numTipNames ∧ cfg.numTipNames ≤ 65535
  calR : cfg.calRMin ≤ 16777215 ∧ cfg.calRMax ≤ 16777215
  nameIrons : cfg.tipNameIron.length = cfg.numTipNames
  defTip : ∀ i, i ≠ .unknown →
    (defaultTip cfg i).toNat < cfg.numTipNames ∧ tipNameIron cfg (defaultTip cfg i) = i
  defCal : ∀ i, i ≠ .unknown → ∀ p,
    ((cfg.defaultCal.get Config.unknownCal i).get p).toNat ≤ 16777215
  defPid : ∀ i p, ((cfg.defaultPid.get i).get p).toNat ≤ 1000000
  upper : ∀ i, cfg.dccUpper.get i ≤ 100
  seqs : ∀ i, seqLegal i (cfg.seq.get i) = true
  vsel : ∀ i, i ≠ .unknown → vselOf cfg i ≠ 0

theorem all_known {p : Iron → Bool} (h : knownIrons.all p = true) {i : Iron} (hi : i ≠ .unknown) :
    p i = true :=
  List.all_eq_true.1 h i (by cases i <;> simp_all [knownIrons])

theorem all_irons {p : Iron → Bool} (h : allIrons.all p = true) (i : Iron) : p i = true :=
  List.all_eq_true.1 h i (by cases i <;> simp [allIrons, knownIrons])

/-- R9: the ranges a legal configuration keeps. -/
theorem configLegal_facts {cfg : Config} (h : configLegal cfg = true) : CfgFacts cfg := by
  simp only [configLegal, Bool.and_eq_true] at h
  obtain ⟨⟨⟨⟨h1, h2⟩, h3⟩, h4⟩, h5⟩ := h
  simp only [scalarsLegal, List.all_cons, List.all_nil, id_eq, decide_eq_true_eq,
    Bool.and_eq_true, Bool.and_true] at h1
  obtain ⟨a1, a2, a3, a4, a5, a6, a7, a8, a9, a10, a11, a12, a13, a14, a15⟩ := h1
  simp only [tipTablesLegal, Bool.and_eq_true, beq_iff_eq] at h2
  simp only [defaultsLegal, Bool.and_eq_true] at h3
  simp only [ironsLegal, Bool.and_eq_true] at h4
  constructor <;> first | assumption | skip
  · exact h2.1
  · intro i hi
    simpa using all_known h2.2 hi
  · intro i hi p
    have := all_known h3.1 hi
    simp only [Bool.and_eq_true, List.all_cons, List.all_nil, decide_eq_true_eq] at this
    cases p <;> simp only [Triple.get] <;> omega
  · intro i p
    have := all_irons h3.2 i
    simp only [Bool.and_eq_true, List.all_cons, List.all_nil, decide_eq_true_eq] at this
    cases p <;> simp only [Quad.get] <;> omega
  · intro i
    have := all_irons h4.1 i
    simp only [Bool.and_eq_true, decide_eq_true_eq] at this
    exact this.1
  · intro i
    have := all_irons h4.1 i
    simp only [Bool.and_eq_true, decide_eq_true_eq] at this
    exact this.2
  · intro i hi
    have := all_known h4.2 hi
    simp only [Bool.and_eq_true, bne_iff_ne] at this
    exact this.1
end Sys2Proof.Machine
end

