-- ==== Sys2Proof/Laws/State.lean ====
section
/-! SUPPORT. One lemma per field per update of `State`: what each shared update of Machine/Ops.lean and
Machine/Fetch.lean leaves in every field. -/

namespace Sys2Proof.Machine

/-! `ch[c] <- x`: the two channels -/

@[simp] theorem State.chan_setChan_same (s : State) (c : Chan) (x : Channel) :
    (s.setChan c x).chan c = x := by cases c <;> rfl

theorem State.chan_setChan_other (s : State) {c d : Chan} (x : Channel) (h : d ≠ c) :
    (s.setChan c x).chan d = s.chan d := by cases c <;> cases d <;> first | rfl | exact absurd rfl h

theorem State.chan_setChan (s : State) (c d : Chan) (x : Channel) :
    (s.setChan c x).chan d = if d = c then x else s.chan d := by cases c <;> cases d <;> rfl

@[simp] theorem State.setChan_chan (s : State) (c : Chan) : s.setChan c (s.chan c) = s := by
  cases c <;> rfl

@[simp] theorem State.chan_ch0 (s : State) : s.chan .ch0 = s.ch0 := rfl
@[simp] theorem State.chan_ch1 (s : State) : s.chan .ch1 = s.ch1 := rfl

theorem State.updChan_eq (s : State) (c : Chan) (f : Channel → Channel) :
    s.updChan c f = s.setChan c (f (s.chan c)) := rfl

/-! `setChan` -/

@[simp] theorem State.setChan_cfg (s : State) (c : Chan) (x : Channel) : (s.setChan c x).cfg = s.cfg :=
    by cases c <;> rfl
@[simp] theorem State.setChan_ctlEnabled (s : State) (c : Chan) (x : Channel) : (s.setChan c x).ctlEnabled = s.ctlEnabled :=
    by cases c <;> rfl
@[simp] theorem State.setChan_fatal (s : State) (c : Chan) (x : Channel) : (s.setChan c x).fatal = s.fatal :=
    by cases c <;> rfl
@[simp] theorem State.setChan_fatalCode (s : State) (c : Chan) (x : Channel) : (s.setChan c x).fatalCode = s.fatalCode :=
    by cases c <;> rfl
@[simp] theorem State.setChan_overrun (s : State) (c : Chan) (x : Channel) : (s.setChan c x).overrun = s.overrun :=
    by cases c <;> rfl
@[simp] theorem State.setChan_cmdErr (s : State) (c : Chan) (x : Channel) : (s.setChan c x).cmdErr = s.cmdErr :=
    by cases c <;> rfl
@[simp] theorem State.setChan_cmdCode (s : State) (c : Chan) (x : Channel) : (s.setChan c x).cmdCode = s.cmdCode :=
    by cases c <;> rfl
@[simp] theorem State.setChan_resp (s : State) (c : Chan) (x : Channel) : (s.setChan c x).resp = s.resp :=
    by cases c <;> rfl
@[simp] theorem State.setChan_respOk (s : State) (c : Chan) (x : Channel) : (s.setChan c x).respOk = s.respOk :=
    by cases c <;> rfl
@[simp] theorem State.setChan_timerArmed (s : State) (c : Chan) (x : Channel) : (s.setChan c x).timerArmed = s.timerArmed :=
    by cases c <;> rfl
@[simp] theorem State.setChan_adcBusy (s : State) (c : Chan) (x : Channel) : (s.setChan c x).adcBusy = s.adcBusy :=
    by cases c <;> rfl
@[simp] theorem State.setChan_refreshCnt (s : State) (c : Chan) (x : Channel) : (s.setChan c x).refreshCnt = s.refreshCnt :=
    by cases c <;> rfl
@[simp] theorem State.setChan_reportCnt (s : State) (c : Chan) (x : Channel) : (s.setChan c x).reportCnt = s.reportCnt :=
    by cases c <;> rfl
@[simp] theorem State.setChan_refreshReq (s : State) (c : Chan) (x : Channel) : (s.setChan c x).refreshReq = s.refreshReq :=
    by cases c <;> rfl
@[simp] theorem State.setChan_logReq (s : State) (c : Chan) (x : Channel) : (s.setChan c x).logReq = s.logReq :=
    by cases c <;> rfl
@[simp] theorem State.setChan_chipTemp (s : State) (c : Chan) (x : Channel) : (s.setChan c x).chipTemp = s.chipTemp :=
    by cases c <;> rfl
@[simp] theorem State.setChan_q (s : State) (c : Chan) (x : Channel) : (s.setChan c x).q = s.q :=
    by cases c <;> rfl
@[simp] theorem State.setChan_qLen (s : State) (c : Chan) (x : Channel) : (s.setChan c x).qLen = s.qLen :=
    by cases c <;> rfl
@[simp] theorem State.setChan_qIdx (s : State) (c : Chan) (x : Channel) : (s.setChan c x).qIdx = s.qIdx :=
    by cases c <;> rfl
@[simp] theorem State.setChan_adcMux (s : State) (c : Chan) (x : Channel) : (s.setChan c x).adcMux = s.adcMux :=
    by cases c <;> rfl
@[simp] theorem State.setChan_adcStart (s : State) (c : Chan) (x : Channel) : (s.setChan c x).adcStart = s.adcStart :=
    by cases c <;> rfl
@[simp] theorem State.setChan_tmrArm (s : State) (c : Chan) (x : Channel) : (s.setChan c x).tmrArm = s.tmrArm :=
    by cases c <;> rfl
@[simp] theorem State.setChan_tips (s : State) (c : Chan) (x : Channel) : (s.setChan c x).tips = s.tips :=
    by cases c <;> rfl
@[simp] theorem State.setChan_pend (s : State) (c : Chan) (x : Channel) : (s.setChan c x).pend = s.pend :=
    by cases c <;> rfl
@[simp] theorem State.setChan_chipTempIn (s : State) (c : Chan) (x : Channel) : (s.setChan c x).chipTempIn = s.chipTempIn :=
    by cases c <;> rfl
@[simp] theorem State.setChan_rst (s : State) (c : Chan) (x : Channel) : (s.setChan c x).rst = s.rst :=
    by cases c <;> rfl
@[simp] theorem State.setChan_ret (s : State) (c : Chan) (x : Channel) : (s.setChan c x).ret = s.ret :=
    by cases c <;> rfl

/-! `setTip` -/

@[simp] theorem State.setTip_cfg (s : State) (i : Nat) (r : TipRecord) : (s.setTip i r).cfg = s.cfg :=
    rfl
@[simp] theorem State.setTip_ctlEnabled (s : State) (i : Nat) (r : TipRecord) : (s.setTip i r).ctlEnabled = s.ctlEnabled :=
    rfl
@[simp] theorem State.setTip_fatal (s : State) (i : Nat) (r : TipRecord) : (s.setTip i r).fatal = s.fatal :=
    rfl
@[simp] theorem State.setTip_fatalCode (s : State) (i : Nat) (r : TipRecord) : (s.setTip i r).fatalCode = s.fatalCode :=
    rfl
@[simp] theorem State.setTip_overrun (s : State) (i : Nat) (r : TipRecord) : (s.setTip i r).overrun = s.overrun :=
    rfl
@[simp] theorem State.setTip_cmdErr (s : State) (i : Nat) (r : TipRecord) : (s.setTip i r).cmdErr = s.cmdErr :=
    rfl
@[simp] theorem State.setTip_cmdCode (s : State) (i : Nat) (r : TipRecord) : (s.setTip i r).cmdCode = s.cmdCode :=
    rfl
@[simp] theorem State.setTip_resp (s : State) (i : Nat) (r : TipRecord) : (s.setTip i r).resp = s.resp :=
    rfl
@[simp] theorem State.setTip_respOk (s : State) (i : Nat) (r : TipRecord) : (s.setTip i r).respOk = s.respOk :=
    rfl
@[simp] theorem State.setTip_timerArmed (s : State) (i : Nat) (r : TipRecord) : (s.setTip i r).timerArmed = s.timerArmed :=
    rfl
@[simp] theorem State.setTip_adcBusy (s : State) (i : Nat) (r : TipRecord) : (s.setTip i r).adcBusy = s.adcBusy :=
    rfl
@[simp] theorem State.setTip_refreshCnt (s : State) (i : Nat) (r : TipRecord) : (s.setTip i r).refreshCnt = s.refreshCnt :=
    rfl
@[simp] theorem State.setTip_reportCnt (s : State) (i : Nat) (r : TipRecord) : (s.setTip i r).reportCnt = s.reportCnt :=
    rfl
@[simp] theorem State.setTip_refreshReq (s : State) (i : Nat) (r : TipRecord) : (s.setTip i r).refreshReq = s.refreshReq :=
    rfl
@[simp] theorem State.setTip_logReq (s : State) (i : Nat) (r : TipRecord) : (s.setTip i r).logReq = s.logReq :=
    rfl
@[simp] theorem State.setTip_chipTemp (s : State) (i : Nat) (r : TipRecord) : (s.setTip i r).chipTemp = s.chipTemp :=
    rfl
@[simp] theorem State.setTip_q (s : State) (i : Nat) (r : TipRecord) : (s.setTip i r).q = s.q := rfl
@[simp] theorem State.setTip_qLen (s : State) (i : Nat) (r : TipRecord) : (s.setTip i r).qLen = s.qLen :=
    rfl
@[simp] theorem State.setTip_qIdx (s : State) (i : Nat) (r : TipRecord) : (s.setTip i r).qIdx = s.qIdx :=
    rfl
@[simp] theorem State.setTip_adcMux (s : State) (i : Nat) (r : TipRecord) : (s.setTip i r).adcMux = s.adcMux :=
    rfl
@[simp] theorem State.setTip_adcStart (s : State) (i : Nat) (r : TipRecord) : (s.setTip i r).adcStart = s.adcStart :=
    rfl
@[simp] theorem State.setTip_tmrArm (s : State) (i : Nat) (r : TipRecord) : (s.setTip i r).tmrArm = s.tmrArm :=
    rfl
@[simp] theorem State.setTip_ch0 (s : State) (i : Nat) (r : TipRecord) : (s.setTip i r).ch0 = s.ch0 :=
    rfl
@[simp] theorem State.setTip_ch1 (s : State) (i : Nat) (r : TipRecord) : (s.setTip i r).ch1 = s.ch1 :=
    rfl
@[simp] theorem State.setTip_tips (s : State) (i : Nat) (r : TipRecord) : (s.setTip i r).tips = s.tips.set i r :=
    rfl
@[simp] theorem State.setTip_pend (s : State) (i : Nat) (r : TipRecord) : (s.setTip i r).pend = s.pend :=
    rfl
@[simp] theorem State.setTip_chipTempIn (s : State) (i : Nat) (r : TipRecord) : (s.setTip i r).chipTempIn = s.chipTempIn :=
    rfl
@[simp] theorem State.setTip_rst (s : State) (i : Nat) (r : TipRecord) : (s.setTip i r).rst = s.rst :=
    rfl
@[simp] theorem State.setTip_ret (s : State) (i : Nat) (r : TipRecord) : (s.setTip i r).ret = s.ret :=
    rfl

/-! `accept` -/

@[simp] theorem State.accept_cfg (s : State) (v : RegWord) : (s.accept v).cfg = s.cfg := rfl
@[simp] theorem State.accept_ctlEnabled (s : State) (v : RegWord) : (s.accept v).ctlEnabled = s.ctlEnabled :=
    rfl
@[simp] theorem State.accept_fatal (s : State) (v : RegWord) : (s.accept v).fatal = s.fatal := rfl
@[simp] theorem State.accept_fatalCode (s : State) (v : RegWord) : (s.accept v).fatalCode = s.fatalCode :=
    rfl
@[simp] theorem State.accept_overrun (s : State) (v : RegWord) : (s.accept v).overrun = s.overrun :=
    rfl
@[simp] theorem State.accept_cmdErr (s : State) (v : RegWord) : (s.accept v).cmdErr = s.cmdErr :=
    rfl
@[simp] theorem State.accept_cmdCode (s : State) (v : RegWord) : (s.accept v).cmdCode = s.cmdCode :=
    rfl
@[simp] theorem State.accept_resp (s : State) (v : RegWord) : (s.accept v).resp = v := rfl
@[simp] theorem State.accept_respOk (s : State) (v : RegWord) : (s.accept v).respOk = true := rfl
@[simp] theorem State.accept_timerArmed (s : State) (v : RegWord) : (s.accept v).timerArmed = s.timerArmed :=
    rfl
@[simp] theorem State.accept_adcBusy (s : State) (v : RegWord) : (s.accept v).adcBusy = s.adcBusy :=
    rfl
@[simp] theorem State.accept_refreshCnt (s : State) (v : RegWord) : (s.accept v).refreshCnt = s.refreshCnt :=
    rfl
@[simp] theorem State.accept_reportCnt (s : State) (v : RegWord) : (s.accept v).reportCnt = s.reportCnt :=
    rfl
@[simp] theorem State.accept_refreshReq (s : State) (v : RegWord) : (s.accept v).refreshReq = s.refreshReq :=
    rfl
@[simp] theorem State.accept_logReq (s : State) (v : RegWord) : (s.accept v).logReq = s.logReq :=
    rfl
@[simp] theorem State.accept_chipTemp (s : State) (v : RegWord) : (s.accept v).chipTemp = s.chipTemp :=
    rfl
@[simp] theorem State.accept_q (s : State) (v : RegWord) : (s.accept v).q = s.q := rfl
@[simp] theorem State.accept_qLen (s : State) (v : RegWord) : (s.accept v).qLen = s.qLen := rfl
@[simp] theorem State.accept_qIdx (s : State) (v : RegWord) : (s.accept v).qIdx = s.qIdx := rfl
@[simp] theorem State.accept_adcMux (s : State) (v : RegWord) : (s.accept v).adcMux = s.adcMux :=
    rfl
@[simp] theorem State.accept_adcStart (s : State) (v : RegWord) : (s.accept v).adcStart = s.adcStart :=
    rfl
@[simp] theorem State.accept_tmrArm (s : State) (v : RegWord) : (s.accept v).tmrArm = s.tmrArm :=
    rfl
@[simp] theorem State.accept_ch0 (s : State) (v : RegWord) : (s.accept v).ch0 = s.ch0 := rfl
@[simp] theorem State.accept_ch1 (s : State) (v : RegWord) : (s.accept v).ch1 = s.ch1 := rfl
@[simp] theorem State.accept_tips (s : State) (v : RegWord) : (s.accept v).tips = s.tips := rfl
@[simp] theorem State.accept_pend (s : State) (v : RegWord) : (s.accept v).pend = s.pend := rfl
@[simp] theorem State.accept_chipTempIn (s : State) (v : RegWord) : (s.accept v).chipTempIn = s.chipTempIn :=
    rfl
@[simp] theorem State.accept_rst (s : State) (v : RegWord) : (s.accept v).rst = s.rst :=
    rfl
@[simp] theorem State.accept_ret (s : State) (v : RegWord) : (s.accept v).ret = s.ret := rfl

/-! `reject` -/

@[simp] theorem State.reject_cfg (s : State) (e : RejectCode) : (s.reject e).cfg = s.cfg := rfl
@[simp] theorem State.reject_ctlEnabled (s : State) (e : RejectCode) : (s.reject e).ctlEnabled = s.ctlEnabled :=
    rfl
@[simp] theorem State.reject_fatal (s : State) (e : RejectCode) : (s.reject e).fatal = s.fatal :=
    rfl
@[simp] theorem State.reject_fatalCode (s : State) (e : RejectCode) : (s.reject e).fatalCode = s.fatalCode :=
    rfl
@[simp] theorem State.reject_overrun (s : State) (e : RejectCode) : (s.reject e).overrun = s.overrun :=
    rfl
@[simp] theorem State.reject_cmdErr (s : State) (e : RejectCode) : (s.reject e).cmdErr = true := rfl
@[simp] theorem State.reject_cmdCode (s : State) (e : RejectCode) : (s.reject e).cmdCode = some e :=
    rfl
@[simp] theorem State.reject_resp (s : State) (e : RejectCode) : (s.reject e).resp = 0xFFFFFFFF :=
    rfl
@[simp] theorem State.reject_respOk (s : State) (e : RejectCode) : (s.reject e).respOk = false :=
    rfl
@[simp] theorem State.reject_timerArmed (s : State) (e : RejectCode) : (s.reject e).timerArmed = s.timerArmed :=
    rfl
@[simp] theorem State.reject_adcBusy (s : State) (e : RejectCode) : (s.reject e).adcBusy = s.adcBusy :=
    rfl
@[simp] theorem State.reject_refreshCnt (s : State) (e : RejectCode) : (s.reject e).refreshCnt = s.refreshCnt :=
    rfl
@[simp] theorem State.reject_reportCnt (s : State) (e : RejectCode) : (s.reject e).reportCnt = s.reportCnt :=
    rfl
@[simp] theorem State.reject_refreshReq (s : State) (e : RejectCode) : (s.reject e).refreshReq = s.refreshReq :=
    rfl
@[simp] theorem State.reject_logReq (s : State) (e : RejectCode) : (s.reject e).logReq = s.logReq :=
    rfl
@[simp] theorem State.reject_chipTemp (s : State) (e : RejectCode) : (s.reject e).chipTemp = s.chipTemp :=
    rfl
@[simp] theorem State.reject_q (s : State) (e : RejectCode) : (s.reject e).q = s.q := rfl
@[simp] theorem State.reject_qLen (s : State) (e : RejectCode) : (s.reject e).qLen = s.qLen := rfl
@[simp] theorem State.reject_qIdx (s : State) (e : RejectCode) : (s.reject e).qIdx = s.qIdx := rfl
@[simp] theorem State.reject_adcMux (s : State) (e : RejectCode) : (s.reject e).adcMux = s.adcMux :=
    rfl
@[simp] theorem State.reject_adcStart (s : State) (e : RejectCode) : (s.reject e).adcStart = s.adcStart :=
    rfl
@[simp] theorem State.reject_tmrArm (s : State) (e : RejectCode) : (s.reject e).tmrArm = s.tmrArm :=
    rfl
@[simp] theorem State.reject_ch0 (s : State) (e : RejectCode) : (s.reject e).ch0 = s.ch0 := rfl
@[simp] theorem State.reject_ch1 (s : State) (e : RejectCode) : (s.reject e).ch1 = s.ch1 := rfl
@[simp] theorem State.reject_tips (s : State) (e : RejectCode) : (s.reject e).tips = s.tips := rfl
@[simp] theorem State.reject_pend (s : State) (e : RejectCode) : (s.reject e).pend = s.pend := rfl
@[simp] theorem State.reject_chipTempIn (s : State) (e : RejectCode) : (s.reject e).chipTempIn = s.chipTempIn :=
    rfl
@[simp] theorem State.reject_rst (s : State) (e : RejectCode) : (s.reject e).rst = s.rst :=
    rfl
@[simp] theorem State.reject_ret (s : State) (e : RejectCode) : (s.reject e).ret = s.ret := rfl

/-! `raiseFatal` -/

@[simp] theorem State.raiseFatal_cfg (s : State) (e : FatalCause) : (s.raiseFatal e).cfg = s.cfg :=
    rfl
@[simp] theorem State.raiseFatal_ctlEnabled (s : State) (e : FatalCause) : (s.raiseFatal e).ctlEnabled = s.ctlEnabled :=
    rfl
@[simp] theorem State.raiseFatal_fatal (s : State) (e : FatalCause) : (s.raiseFatal e).fatal = true :=
    rfl
@[simp] theorem State.raiseFatal_fatalCode (s : State) (e : FatalCause) : (s.raiseFatal e).fatalCode = some e :=
    rfl
@[simp] theorem State.raiseFatal_overrun (s : State) (e : FatalCause) : (s.raiseFatal e).overrun = s.overrun :=
    rfl
@[simp] theorem State.raiseFatal_cmdErr (s : State) (e : FatalCause) : (s.raiseFatal e).cmdErr = s.cmdErr :=
    rfl
@[simp] theorem State.raiseFatal_cmdCode (s : State) (e : FatalCause) : (s.raiseFatal e).cmdCode = s.cmdCode :=
    rfl
@[simp] theorem State.raiseFatal_resp (s : State) (e : FatalCause) : (s.raiseFatal e).resp = s.resp :=
    rfl
@[simp] theorem State.raiseFatal_respOk (s : State) (e : FatalCause) : (s.raiseFatal e).respOk = s.respOk :=
    rfl
@[simp] theorem State.raiseFatal_timerArmed (s : State) (e : FatalCause) : (s.raiseFatal e).timerArmed = s.timerArmed :=
    rfl
@[simp] theorem State.raiseFatal_adcBusy (s : State) (e : FatalCause) : (s.raiseFatal e).adcBusy = s.adcBusy :=
    rfl
@[simp] theorem State.raiseFatal_refreshCnt (s : State) (e : FatalCause) : (s.raiseFatal e).refreshCnt = s.refreshCnt :=
    rfl
@[simp] theorem State.raiseFatal_reportCnt (s : State) (e : FatalCause) : (s.raiseFatal e).reportCnt = s.reportCnt :=
    rfl
@[simp] theorem State.raiseFatal_refreshReq (s : State) (e : FatalCause) : (s.raiseFatal e).refreshReq = s.refreshReq :=
    rfl
@[simp] theorem State.raiseFatal_logReq (s : State) (e : FatalCause) : (s.raiseFatal e).logReq = s.logReq :=
    rfl
@[simp] theorem State.raiseFatal_chipTemp (s : State) (e : FatalCause) : (s.raiseFatal e).chipTemp = s.chipTemp :=
    rfl
@[simp] theorem State.raiseFatal_q (s : State) (e : FatalCause) : (s.raiseFatal e).q = s.q := rfl
@[simp] theorem State.raiseFatal_qLen (s : State) (e : FatalCause) : (s.raiseFatal e).qLen = s.qLen :=
    rfl
@[simp] theorem State.raiseFatal_qIdx (s : State) (e : FatalCause) : (s.raiseFatal e).qIdx = s.qIdx :=
    rfl
@[simp] theorem State.raiseFatal_adcMux (s : State) (e : FatalCause) : (s.raiseFatal e).adcMux = s.adcMux :=
    rfl
@[simp] theorem State.raiseFatal_adcStart (s : State) (e : FatalCause) : (s.raiseFatal e).adcStart = s.adcStart :=
    rfl
@[simp] theorem State.raiseFatal_tmrArm (s : State) (e : FatalCause) : (s.raiseFatal e).tmrArm = s.tmrArm :=
    rfl
@[simp] theorem State.raiseFatal_ch0 (s : State) (e : FatalCause) : (s.raiseFatal e).ch0 = { s.ch0 with drive := 0 } :=
    rfl
@[simp] theorem State.raiseFatal_ch1 (s : State) (e : FatalCause) : (s.raiseFatal e).ch1 = { s.ch1 with drive := 0 } :=
    rfl
@[simp] theorem State.raiseFatal_tips (s : State) (e : FatalCause) : (s.raiseFatal e).tips = s.tips :=
    rfl
@[simp] theorem State.raiseFatal_pend (s : State) (e : FatalCause) : (s.raiseFatal e).pend = s.pend :=
    rfl
@[simp] theorem State.raiseFatal_chipTempIn (s : State) (e : FatalCause) : (s.raiseFatal e).chipTempIn = s.chipTempIn :=
    rfl
@[simp] theorem State.raiseFatal_rst (s : State) (e : FatalCause) : (s.raiseFatal e).rst = s.rst :=
    rfl
@[simp] theorem State.raiseFatal_ret (s : State) (e : FatalCause) : (s.raiseFatal e).ret = s.ret :=
    rfl

/-! `dropPulses` -/

@[simp] theorem State.dropPulses_cfg (s : State) : (s.dropPulses).cfg = s.cfg := rfl
@[simp] theorem State.dropPulses_ctlEnabled (s : State) : (s.dropPulses).ctlEnabled = s.ctlEnabled :=
    rfl
@[simp] theorem State.dropPulses_fatal (s : State) : (s.dropPulses).fatal = s.fatal := rfl
@[simp] theorem State.dropPulses_fatalCode (s : State) : (s.dropPulses).fatalCode = s.fatalCode :=
    rfl
@[simp] theorem State.dropPulses_overrun (s : State) : (s.dropPulses).overrun = s.overrun := rfl
@[simp] theorem State.dropPulses_cmdErr (s : State) : (s.dropPulses).cmdErr = s.cmdErr := rfl
@[simp] theorem State.dropPulses_cmdCode (s : State) : (s.dropPulses).cmdCode = s.cmdCode := rfl
@[simp] theorem State.dropPulses_resp (s : State) : (s.dropPulses).resp = s.resp := rfl
@[simp] theorem State.dropPulses_respOk (s : State) : (s.dropPulses).respOk = s.respOk := rfl
@[simp] theorem State.dropPulses_timerArmed (s : State) : (s.dropPulses).timerArmed = s.timerArmed :=
    rfl
@[simp] theorem State.dropPulses_adcBusy (s : State) : (s.dropPulses).adcBusy = s.adcBusy := rfl
@[simp] theorem State.dropPulses_refreshCnt (s : State) : (s.dropPulses).refreshCnt = s.refreshCnt :=
    rfl
@[simp] theorem State.dropPulses_reportCnt (s : State) : (s.dropPulses).reportCnt = s.reportCnt :=
    rfl
@[simp] theorem State.dropPulses_refreshReq (s : State) : (s.dropPulses).refreshReq = s.refreshReq :=
    rfl
@[simp] theorem State.dropPulses_logReq (s : State) : (s.dropPulses).logReq = s.logReq := rfl
@[simp] theorem State.dropPulses_chipTemp (s : State) : (s.dropPulses).chipTemp = s.chipTemp := rfl
@[simp] theorem State.dropPulses_q (s : State) : (s.dropPulses).q = s.q := rfl
@[simp] theorem State.dropPulses_qLen (s : State) : (s.dropPulses).qLen = s.qLen := rfl
@[simp] theorem State.dropPulses_qIdx (s : State) : (s.dropPulses).qIdx = s.qIdx := rfl
@[simp] theorem State.dropPulses_adcMux (s : State) : (s.dropPulses).adcMux = s.adcMux := rfl
@[simp] theorem State.dropPulses_adcStart (s : State) : (s.dropPulses).adcStart = false := rfl
@[simp] theorem State.dropPulses_tmrArm (s : State) : (s.dropPulses).tmrArm = false := rfl
@[simp] theorem State.dropPulses_ch0 (s : State) : (s.dropPulses).ch0 = s.ch0 := rfl
@[simp] theorem State.dropPulses_ch1 (s : State) : (s.dropPulses).ch1 = s.ch1 := rfl
@[simp] theorem State.dropPulses_tips (s : State) : (s.dropPulses).tips = s.tips := rfl
@[simp] theorem State.dropPulses_pend (s : State) : (s.dropPulses).pend = s.pend := rfl
@[simp] theorem State.dropPulses_chipTempIn (s : State) : (s.dropPulses).chipTempIn = s.chipTempIn :=
    rfl
@[simp] theorem State.dropPulses_rst (s : State) : (s.dropPulses).rst = s.rst :=
    rfl
@[simp] theorem State.dropPulses_ret (s : State) : (s.dropPulses).ret = s.ret := rfl

/-! `beginStep` -/

@[simp] theorem State.beginStep_cfg (s : State) (st : Stimulus) : (s.beginStep st).cfg = s.cfg :=
    rfl
@[simp] theorem State.beginStep_ctlEnabled (s : State) (st : Stimulus) : (s.beginStep st).ctlEnabled = s.ctlEnabled :=
    rfl
@[simp] theorem State.beginStep_fatal (s : State) (st : Stimulus) : (s.beginStep st).fatal = s.fatal :=
    rfl
@[simp] theorem State.beginStep_fatalCode (s : State) (st : Stimulus) : (s.beginStep st).fatalCode = s.fatalCode :=
    rfl
@[simp] theorem State.beginStep_overrun (s : State) (st : Stimulus) : (s.beginStep st).overrun = s.overrun :=
    rfl
@[simp] theorem State.beginStep_cmdErr (s : State) (st : Stimulus) : (s.beginStep st).cmdErr = s.cmdErr :=
    rfl
@[simp] theorem State.beginStep_cmdCode (s : State) (st : Stimulus) : (s.beginStep st).cmdCode = s.cmdCode :=
    rfl
@[simp] theorem State.beginStep_resp (s : State) (st : Stimulus) : (s.beginStep st).resp = s.resp :=
    rfl
@[simp] theorem State.beginStep_respOk (s : State) (st : Stimulus) : (s.beginStep st).respOk = s.respOk :=
    rfl
@[simp] theorem State.beginStep_timerArmed (s : State) (st : Stimulus) : (s.beginStep st).timerArmed = s.timerArmed :=
    rfl
@[simp] theorem State.beginStep_adcBusy (s : State) (st : Stimulus) : (s.beginStep st).adcBusy = s.adcBusy :=
    rfl
@[simp] theorem State.beginStep_refreshCnt (s : State) (st : Stimulus) : (s.beginStep st).refreshCnt = s.refreshCnt :=
    rfl
@[simp] theorem State.beginStep_reportCnt (s : State) (st : Stimulus) : (s.beginStep st).reportCnt = s.reportCnt :=
    rfl
@[simp] theorem State.beginStep_refreshReq (s : State) (st : Stimulus) : (s.beginStep st).refreshReq = s.refreshReq :=
    rfl
@[simp] theorem State.beginStep_logReq (s : State) (st : Stimulus) : (s.beginStep st).logReq = s.logReq :=
    rfl
@[simp] theorem State.beginStep_chipTemp (s : State) (st : Stimulus) : (s.beginStep st).chipTemp = s.chipTemp :=
    rfl
@[simp] theorem State.beginStep_q (s : State) (st : Stimulus) : (s.beginStep st).q = s.q := rfl
@[simp] theorem State.beginStep_qLen (s : State) (st : Stimulus) : (s.beginStep st).qLen = s.qLen :=
    rfl
@[simp] theorem State.beginStep_qIdx (s : State) (st : Stimulus) : (s.beginStep st).qIdx = s.qIdx :=
    rfl
@[simp] theorem State.beginStep_adcMux (s : State) (st : Stimulus) : (s.beginStep st).adcMux = s.adcMux :=
    rfl
@[simp] theorem State.beginStep_adcStart (s : State) (st : Stimulus) : (s.beginStep st).adcStart = false :=
    rfl
@[simp] theorem State.beginStep_tmrArm (s : State) (st : Stimulus) : (s.beginStep st).tmrArm = false :=
    rfl
@[simp] theorem State.beginStep_ch0 (s : State) (st : Stimulus) : (s.beginStep st).ch0 = s.ch0 :=
    rfl
@[simp] theorem State.beginStep_ch1 (s : State) (st : Stimulus) : (s.beginStep st).ch1 = s.ch1 :=
    rfl
@[simp] theorem State.beginStep_tips (s : State) (st : Stimulus) : (s.beginStep st).tips = s.tips :=
    rfl
@[simp] theorem State.beginStep_pend (s : State) (st : Stimulus) : (s.beginStep st).pend = s.pend.take st :=
    rfl
@[simp] theorem State.beginStep_chipTempIn (s : State) (st : Stimulus) : (s.beginStep st).chipTempIn = s.chipTempIn :=
    rfl
@[simp] theorem State.beginStep_rst (s : State) (st : Stimulus) : (s.beginStep st).rst = s.rst :=
    rfl
@[simp] theorem State.beginStep_ret (s : State) (st : Stimulus) : (s.beginStep st).ret = s.ret :=
    rfl

/-! `putChannel` -/

@[simp] theorem State.putChannel_cfg (s : State) (c : Chan) (r : Channel × List TipRecord) : (s.putChannel c r).cfg = s.cfg :=
    by cases c <;> rfl
@[simp] theorem State.putChannel_ctlEnabled (s : State) (c : Chan) (r : Channel × List TipRecord) : (s.putChannel c r).ctlEnabled = s.ctlEnabled :=
    by cases c <;> rfl
@[simp] theorem State.putChannel_fatal (s : State) (c : Chan) (r : Channel × List TipRecord) : (s.putChannel c r).fatal = s.fatal :=
    by cases c <;> rfl
@[simp] theorem State.putChannel_fatalCode (s : State) (c : Chan) (r : Channel × List TipRecord) : (s.putChannel c r).fatalCode = s.fatalCode :=
    by cases c <;> rfl
@[simp] theorem State.putChannel_overrun (s : State) (c : Chan) (r : Channel × List TipRecord) : (s.putChannel c r).overrun = s.overrun :=
    by cases c <;> rfl
@[simp] theorem State.putChannel_cmdErr (s : State) (c : Chan) (r : Channel × List TipRecord) : (s.putChannel c r).cmdErr = s.cmdErr :=
    by cases c <;> rfl
@[simp] theorem State.putChannel_cmdCode (s : State) (c : Chan) (r : Channel × List TipRecord) : (s.putChannel c r).cmdCode = s.cmdCode :=
    by cases c <;> rfl
@[simp] theorem State.putChannel_resp (s : State) (c : Chan) (r : Channel × List TipRecord) : (s.putChannel c r).resp = s.resp :=
    by cases c <;> rfl
@[simp] theorem State.putChannel_respOk (s : State) (c : Chan) (r : Channel × List TipRecord) : (s.putChannel c r).respOk = s.respOk :=
    by cases c <;> rfl
@[simp] theorem State.putChannel_timerArmed (s : State) (c : Chan) (r : Channel × List TipRecord) : (s.putChannel c r).timerArmed = s.timerArmed :=
    by cases c <;> rfl
@[simp] theorem State.putChannel_adcBusy (s : State) (c : Chan) (r : Channel × List TipRecord) : (s.putChannel c r).adcBusy = s.adcBusy :=
    by cases c <;> rfl
@[simp] theorem State.putChannel_refreshCnt (s : State) (c : Chan) (r : Channel × List TipRecord) : (s.putChannel c r).refreshCnt = s.refreshCnt :=
    by cases c <;> rfl
@[simp] theorem State.putChannel_reportCnt (s : State) (c : Chan) (r : Channel × List TipRecord) : (s.putChannel c r).reportCnt = s.reportCnt :=
    by cases c <;> rfl
@[simp] theorem State.putChannel_refreshReq (s : State) (c : Chan) (r : Channel × List TipRecord) : (s.putChannel c r).refreshReq = s.refreshReq :=
    by cases c <;> rfl
@[simp] theorem State.putChannel_logReq (s : State) (c : Chan) (r : Channel × List TipRecord) : (s.putChannel c r).logReq = s.logReq :=
    by cases c <;> rfl
@[simp] theorem State.putChannel_chipTemp (s : State) (c : Chan) (r : Channel × List TipRecord) : (s.putChannel c r).chipTemp = s.chipTemp :=
    by cases c <;> rfl
@[simp] theorem State.putChannel_q (s : State) (c : Chan) (r : Channel × List TipRecord) : (s.putChannel c r).q = s.q :=
    by cases c <;> rfl
@[simp] theorem State.putChannel_qLen (s : State) (c : Chan) (r : Channel × List TipRecord) : (s.putChannel c r).qLen = s.qLen :=
    by cases c <;> rfl
@[simp] theorem State.putChannel_qIdx (s : State) (c : Chan) (r : Channel × List TipRecord) : (s.putChannel c r).qIdx = s.qIdx :=
    by cases c <;> rfl
@[simp] theorem State.putChannel_adcMux (s : State) (c : Chan) (r : Channel × List TipRecord) : (s.putChannel c r).adcMux = s.adcMux :=
    by cases c <;> rfl
@[simp] theorem State.putChannel_adcStart (s : State) (c : Chan) (r : Channel × List TipRecord) : (s.putChannel c r).adcStart = s.adcStart :=
    by cases c <;> rfl
@[simp] theorem State.putChannel_tmrArm (s : State) (c : Chan) (r : Channel × List TipRecord) : (s.putChannel c r).tmrArm = s.tmrArm :=
    by cases c <;> rfl
@[simp] theorem State.putChannel_tips (s : State) (c : Chan) (r : Channel × List TipRecord) : (s.putChannel c r).tips = r.2 :=
    by cases c <;> rfl
@[simp] theorem State.putChannel_pend (s : State) (c : Chan) (r : Channel × List TipRecord) : (s.putChannel c r).pend = s.pend :=
    by cases c <;> rfl
@[simp] theorem State.putChannel_chipTempIn (s : State) (c : Chan) (r : Channel × List TipRecord) : (s.putChannel c r).chipTempIn = s.chipTempIn :=
    by cases c <;> rfl
@[simp] theorem State.putChannel_rst (s : State) (c : Chan) (r : Channel × List TipRecord) : (s.putChannel c r).rst = s.rst :=
    by cases c <;> rfl
@[simp] theorem State.putChannel_ret (s : State) (c : Chan) (r : Channel × List TipRecord) : (s.putChannel c r).ret = s.ret :=
    by cases c <;> rfl

/-! The channels under the updates that do not touch them -/

@[simp] theorem State.accept_chan (s : State) (v : RegWord) (c : Chan) : (s.accept v).chan c = s.chan c := by
  cases c <;> rfl
@[simp] theorem State.reject_chan (s : State) (e : RejectCode) (c : Chan) :
    (s.reject e).chan c = s.chan c := by cases c <;> rfl
@[simp] theorem State.setTip_chan (s : State) (i : Nat) (r : TipRecord) (c : Chan) :
    (s.setTip i r).chan c = s.chan c := by cases c <;> rfl
@[simp] theorem State.raiseFatal_chan (s : State) (e : FatalCause) (c : Chan) :
    (s.raiseFatal e).chan c = { s.chan c with drive := 0 } := by cases c <;> rfl
@[simp] theorem State.beginStep_chan (s : State) (st : Stimulus) (c : Chan) :
    (s.beginStep st).chan c = s.chan c := by cases c <;> rfl
@[simp] theorem State.dropPulses_chan (s : State) (c : Chan) : s.dropPulses.chan c = s.chan c := by
  cases c <;> rfl
@[simp] theorem State.putChannel_chan_same (s : State) (c : Chan) (r : Channel × List TipRecord) :
    (s.putChannel c r).chan c = r.1 := by cases c <;> rfl
theorem State.putChannel_chan_other (s : State) {c d : Chan} (r : Channel × List TipRecord)
    (h : d ≠ c) : (s.putChannel c r).chan d = s.chan d := by
  cases c <;> cases d <;> first | rfl | exact absurd rfl h

@[simp] theorem State.setTip_poolWf (s : State) (i : Nat) (r : TipRecord) :
    (s.setTip i r).poolWf = s.poolWf := by simp [State.poolWf]

end Sys2Proof.Machine
end

