-- ==== Sys2Proof/Laws/Ops.lean ====
section
/-! SUPPORT. What each shared operation of Machine/Ops.lean and Machine/Operands.lean can do, said once: tip
records, moving averages, host commands, traps, and the bounds of the arithmetic. -/

namespace Sys2Proof.Machine

/-! Arithmetic (R12) -/

theorem clamp_bounds (v : Int) {lo hi : Int} (h : lo ≤ hi) : lo ≤ clamp v lo hi ∧ clamp v lo hi ≤ hi := by
  unfold clamp
  split
  · omega
  · split <;> omega

theorem clamp_of_mem {v lo hi : Int} (h : lo ≤ v) (h' : v ≤ hi) : clamp v lo hi = v := by
  unfold clamp
  rw [if_neg (by omega), if_neg (by omega)]

theorem sat16_bounds (v : Int) : -32768 ≤ sat16 v ∧ sat16 v ≤ 32767 := clamp_bounds v (by decide)

theorem sat64_bounds (v : Int) :
    -9223372036854775808 ≤ sat64 v ∧ sat64 v ≤ 9223372036854775807 := clamp_bounds v (by decide)

/-- A truncated quotient is no larger in magnitude than its dividend. -/
theorem divT_bounds {a N : Int} (b : Int) (h : -N ≤ a) (h' : a ≤ N) : -N ≤ divT a b ∧ divT a b ≤ N := by
  have h1 : (divT a b).natAbs = a.natAbs / b.natAbs := Int.natAbs_tdiv a b
  have h2 := Nat.div_le_self a.natAbs b.natAbs
  omega

theorem toInt_ofInt_16 {v : Int} (h : -32768 ≤ v) (h' : v ≤ 32767) : (BitVec.ofInt 16 v).toInt = v := by
  rw [BitVec.toInt_ofInt]; apply Int.bmod_eq_of_le <;> omega

theorem toInt_ofInt_32 {v : Int} (h : -2147483648 ≤ v) (h' : v ≤ 2147483647) :
    (BitVec.ofInt 32 v).toInt = v := by
  rw [BitVec.toInt_ofInt]; apply Int.bmod_eq_of_le <;> omega

theorem toInt_ofInt_64 {v : Int} (h : -9223372036854775808 ≤ v) (h' : v ≤ 9223372036854775807) :
    (BitVec.ofInt 64 v).toInt = v := by
  rw [BitVec.toInt_ofInt]; apply Int.bmod_eq_of_le <;> omega

/-- A duty in range is held as it is (R30, R121). -/
theorem toNat_ofInt_7 {v : Int} (h : 0 ≤ v) (h' : v ≤ 100) : ((BitVec.ofInt 7 v).toNat : Int) = v := by
  rw [BitVec.toNat_ofInt]; omega

/-! Tip records (R14, R31) -/

@[simp] theorem State.accept_tip (s : State) (v : RegWord) (i : Nat) : (s.accept v).tip i = s.tip i := rfl

@[simp] theorem State.reject_tip (s : State) (e : RejectCode) (i : Nat) :
    (s.reject e).tip i = s.tip i := rfl

theorem tipAt_set_same {tips : List TipRecord} {i : Nat} (r : TipRecord) (h : i < tips.length) :
    tipAt (tips.set i r) i = r := by
  simp [tipAt, h]

theorem tipAt_set_other (tips : List TipRecord) {i j : Nat} (r : TipRecord) (h : i ≠ j) :
    tipAt (tips.set i r) j = tipAt tips j := by
  simp [tipAt, h]

theorem tipAt_mem {tips : List TipRecord} {i : Nat} (h : i < tips.length) : tipAt tips i ∈ tips := by
  simp [tipAt, h]

/-! Moving averages (R28) -/

@[simp] theorem MovingAvg.push_length (m : MovingAvg) (v : BitVec 32) :
    (m.push v).buf.length = m.buf.length := by simp [MovingAvg.push]

theorem MovingAvg.push_full {m : MovingAvg} (v : BitVec 32) (h : m.cnt = m.buf.length) :
    m.push v = { buf := m.buf.set m.idx v, sum := m.sum - m.buf.getD m.idx 0 + v, cnt := m.cnt,
                 idx := (m.idx + 1) % m.buf.length } := by
  simp [MovingAvg.push, h]

theorem MovingAvg.push_notFull {m : MovingAvg} (v : BitVec 32) (h : m.cnt ≠ m.buf.length) :
    m.push v = { buf := m.buf.set m.idx v, sum := m.sum + v, cnt := m.cnt + 1,
                 idx := (m.idx + 1) % m.buf.length } := by
  simp [MovingAvg.push, h]

/-! Host commands (R98, R283, R284) -/

/-- A host command of a halted machine is rejected; otherwise its own rule runs. -/
theorem State.hostCommand_halted {s : State} (body : State → State) (h : s.fatal = true) :
    s.hostCommand body = s.reject .halted := by simp [State.hostCommand, h]

theorem State.hostCommand_running {s : State} (body : State → State) (h : s.fatal = false) :
    s.hostCommand body = body s := by simp [State.hostCommand, h]

/-- What holds of the rejected state and of what the rule leaves holds of the command. -/
theorem State.hostCommand_induct {P : State → Prop} {s : State} {body : State → State}
    (halted : s.fatal = true → P (s.reject .halted)) (running : s.fatal = false → P (body s)) :
    P (s.hostCommand body) := by
  cases h : s.fatal with
  | true => rw [State.hostCommand_halted body h]; exact halted h
  | false => rw [State.hostCommand_running body h]; exact running h

/-! The pool's form (R31) is kept by every operation on tip records -/

theorem allocTip_length (cfg : Config) (n : BitVec 16) (tips : List TipRecord) :
    (allocTip cfg n tips).2.length = tips.length := by
  unfold allocTip
  split
  · rfl
  · split <;> simp

/-- Everything AllocTip can do (R253): find the name's slot, fill the lowest free one, or find none. -/
theorem allocTip_cases (cfg : Config) (n : BitVec 16) (tips : List TipRecord) :
    (∃ i, i < tips.length ∧ (tipAt tips i).name = n ∧ allocTip cfg n tips = (some i, tips))
      ∨ (∃ i, i < tips.length ∧ (tipAt tips i).allocated = false
          ∧ allocTip cfg n tips = (some i, tips.set i (defaultRecord cfg n)))
      ∨ allocTip cfg n tips = (none, tips) := by
  unfold allocTip lowestSlot
  cases h : tips.findIdx? fun r => r.name == n with
  | some i =>
    obtain ⟨hi, hp, -⟩ := List.findIdx?_eq_some_iff_getElem.1 h
    exact .inl ⟨i, hi, by simpa [tipAt, hi] using hp, rfl⟩
  | none =>
    simp only
    cases h' : tips.findIdx? fun r => !r.allocated with
    | some i =>
      obtain ⟨hi, hp, -⟩ := List.findIdx?_eq_some_iff_getElem.1 h'
      exact .inr (.inl ⟨i, hi, by simpa [tipAt, hi] using hp, rfl⟩)
    | none => exact .inr (.inr rfl)

end Sys2Proof.Machine
end

