-- ==== Sys2Proof/Laws/Channel.lean ====
section
/-! SUPPORT. What each operation on a channel can do, said once: a frame equation (everything the operation
does not name is unchanged), the state it leaves, and what selecting a tip does to the pool. -/

namespace Sys2Proof.Machine

/-! Frames: an operation's result is the channel it got with only these fields replaced. -/

theorem Channel.ctlEnable_frame (b : Bool) (ch : Channel) : let x := ch.ctlEnable b
    x = { ch with
      ctlEn := b, iAcc := x.iAcc, tbhPrev := x.tbhPrev, haveIn := x.haveIn, haveErr := x.haveErr } := by
  unfold Channel.ctlEnable
  cases b <;> cases h : ch.ctlEn <;> simp <;> rw [← h]

theorem Channel.dccSet_frame (cfg : Config) (d : Int) (ch : Channel) :
    ch.dccSet cfg d = { ch with duty := (ch.dccSet cfg d).duty } := rfl

theorem Channel.dccAdv_frame (ch : Channel) :
    ch.dccAdv = { ch with on := ch.dccAdv.on, acc := ch.dccAdv.acc } := by
  unfold Channel.dccAdv; simp only; split <;> rfl

/-- R185: what a change of state may write. -/
theorem Channel.setState_frame (cfg : Config) (tgt : SetTarget) (ch : Channel) : let x := ch.setState cfg tgt
    x = { ch with
      state := x.state, ctlEn := x.ctlEn, iAcc := x.iAcc, tbhPrev := x.tbhPrev, haveIn := x.haveIn
      haveErr := x.haveErr, duty := x.duty, on := x.on, drive := x.drive, voltSel := x.voltSel
      led := x.led, idleMs := x.idleMs } := by
  unfold Channel.setState Channel.exitRunning Channel.enterState Channel.ctlEnable Channel.dccSet
  cases tgt <;> simp only <;> repeat' split
  all_goals rfl

/-- R187: a user interaction writes no more than a change of state does. -/
theorem Channel.interact_frame (cfg : Config) (ch : Channel) : let x := ch.interact cfg
    x = { ch with
      state := x.state, ctlEn := x.ctlEn, iAcc := x.iAcc, tbhPrev := x.tbhPrev, haveIn := x.haveIn
      haveErr := x.haveErr, duty := x.duty, on := x.on, drive := x.drive, voltSel := x.voltSel
      led := x.led, idleMs := x.idleMs } := by
  unfold Channel.interact
  simp only
  split
  · exact Channel.setState_frame cfg .active { ch with idleMs := 0 }
  · rfl

/-- R197. -/
theorem Channel.idle_frame (cfg : Config) (ms : Nat) (ch : Channel) : let x := ch.idle cfg ms
    x = { ch with
      state := x.state, ctlEn := x.ctlEn, iAcc := x.iAcc, tbhPrev := x.tbhPrev, haveIn := x.haveIn
      haveErr := x.haveErr, duty := x.duty, on := x.on, drive := x.drive, voltSel := x.voltSel
      led := x.led, idleMs := x.idleMs } := by
  unfold Channel.idle
  simp only
  repeat' split
  · exact Channel.setState_frame cfg .off { ch with idleMs := _ }
  · exact Channel.setState_frame cfg .setback { ch with idleMs := _ }
  · rfl

/-- R162: the controller update writes the controller's own fields and the duty. -/
theorem Channel.measUpd_frame (cfg : Config) (tips : List TipRecord) (target : Int) (ch : Channel) :
    let x := ch.measUpd cfg tips target
    x = { ch with
      curOut := x.curOut, iAcc := x.iAcc, lastIn := x.lastIn, haveIn := x.haveIn, lastErr := x.lastErr
      haveErr := x.haveErr, tbhPrev := x.tbhPrev, duty := x.duty } := by
  unfold Channel.measUpd Channel.ctlStep Channel.pidStep Channel.tbhStep Channel.dccSet
  simp only
  split
  · rfl
  · cases cfg.ctrlKind.get ch.iron <;> simp only <;> repeat' split
    all_goals rfl

/-- R199. -/
theorem Channel.updDrive_frame (cfg : Config) (ch : Channel) : let x := ch.updDrive cfg
    x = { ch with on := x.on, acc := x.acc, pwr := x.pwr, drive := x.drive } := by
  unfold Channel.updDrive Channel.measDrive Channel.dccAdv
  simp only
  repeat' split
  all_goals rfl

/-- R195: tip selection writes the two tip references. -/
theorem Channel.tipSel_frame (cfg : Config) (tips : List TipRecord) (ch : Channel) :
    let x := (ch.tipSel cfg tips).1
    x = { ch with tip := x.tip, selectedTip := x.selectedTip } := by
  unfold Channel.tipSel
  simp only
  split <;> rfl

/-! The state an operation leaves (R181) -/

@[simp] theorem Channel.setState_state (cfg : Config) (tgt : SetTarget) (ch : Channel) :
    (ch.setState cfg tgt).state = targetState tgt := by
  unfold Channel.setState
  split
  · rename_i h; exact h.symm
  · unfold Channel.enterState Channel.ctlEnable Channel.dccSet
    cases tgt <;> (simp only; repeat' split)
    all_goals rfl

@[simp] theorem Channel.setState_iron (cfg : Config) (tgt : SetTarget) (ch : Channel) :
    (ch.setState cfg tgt).iron = ch.iron := by rw [Channel.setState_frame]

@[simp] theorem Channel.setState_tip (cfg : Config) (tgt : SetTarget) (ch : Channel) :
    (ch.setState cfg tgt).tip = ch.tip := by rw [Channel.setState_frame]

theorem Channel.interact_state (cfg : Config) (ch : Channel) :
    (ch.interact cfg).state = if ch.state = .setback then .active else ch.state := by
  unfold Channel.interact
  simp only
  split
  · exact Channel.setState_state cfg .active _
  · rfl

/-- R197: the three ways the idle timer leaves the state. -/
theorem Channel.idle_state (cfg : Config) (ms : Nat) (ch : Channel) :
    (ch.idle cfg ms).state = ch.state
      ∨ (ch.state.isRunning = true ∧ (ch.idle cfg ms).state = .off)
      ∨ (ch.state = .active ∧ (ch.idle cfg ms).state = .setback) := by
  unfold Channel.idle
  simp only
  repeat' split
  · rename_i h; exact .inr (.inl ⟨h.1, Channel.setState_state _ _ _⟩)
  · rename_i h; exact .inr (.inr ⟨h.1, Channel.setState_state _ _ _⟩)
  · exact .inl rfl

theorem isRunning_of_isHeating {st : ChState} (h : st.isHeating = true) : st.isRunning = true := by
  cases st <;> simp_all [ChState.isHeating, ChState.isRunning]

theorem Channel.takeSample_iron (cfg : Config) (slot : Slot) (raw : BitVec 16) (ch : Channel) :
    (ch.takeSample cfg slot raw).iron = ch.iron := by cases slot <;> rfl

/-! Tip selection and the pool (R195, R253) -/

theorem allocated_iff {r : TipRecord} : r.allocated = true ↔ r.name ≠ freeEntry := by
  simp [TipRecord.allocated]

/-- AllocTip leaves every allocated slot as it is. -/
theorem allocTip_keeps (cfg : Config) (n : BitVec 16) (tips : List TipRecord) (i : Nat)
    (h : (tipAt tips i).allocated = true) : tipAt (allocTip cfg n tips).2 i = tipAt tips i := by
  rcases allocTip_cases cfg n tips with ⟨j, -, -, h'⟩ | ⟨j, -, hf, h'⟩ | h' <;> rw [h']
  refine tipAt_set_other _ _ ?_
  rintro rfl
  simp [h] at hf

theorem lowestSlot_some {tips : List TipRecord} {p : TipRecord → Bool} {i : Nat}
    (h : lowestSlot tips p = some i) : i < tips.length ∧ p (tipAt tips i) = true := by
  obtain ⟨hi, hp, -⟩ := List.findIdx?_eq_some_iff_getElem.1 h
  exact ⟨hi, by simpa [tipAt, hi] using hp⟩

/-- R195: tip selection leaves the pool alone or allocates the default tip's record. -/
theorem Channel.tipSel_pool (cfg : Config) (tips : List TipRecord) (ch : Channel) :
    (ch.tipSel cfg tips).2 = tips
      ∨ (ch.tipSel cfg tips).2 = (allocTip cfg (defaultTip cfg ch.iron) tips).2 := by
  unfold Channel.tipSel
  cases reusableSlot cfg tips ch.iron ch.selectedTip with
  | some i => exact .inl rfl
  | none =>
    right
    simp only
    split <;> rfl

/-- R195: everything CH.TIPSEL can do to a channel of a known iron. -/
theorem Channel.tipSel_cases {cfg : Config} {tips : List TipRecord} {ch : Channel} (F : CfgFacts cfg)
    (hl : tips.length = cfg.numTipSettings) (hk : ch.iron ≠ .unknown) :
    (∃ i, i < cfg.numTipSettings ∧ (tipAt (ch.tipSel cfg tips).2 i).allocated = true
        ∧ (tipAt (ch.tipSel cfg tips).2 i).iron cfg = ch.iron
        ∧ (ch.tipSel cfg tips).1 = { ch with tip := BitVec.ofNat 8 i, selectedTip := BitVec.ofNat 16 i })
      ∨ (ch.tipSel cfg tips).1 = { ch with tip := tipNone } := by
  obtain ⟨hn, hi⟩ := F.defTip ch.iron hk
  have hnf : defaultTip cfg ch.iron ≠ freeEntry := by
    intro h
    have := F.names.2
    rw [h] at hn
    simp [freeEntry] at hn
    omega
  unfold Channel.tipSel
  cases hr : reusableSlot cfg tips ch.iron ch.selectedTip with
  | some i =>
    refine .inl ⟨i, ?_⟩
    unfold reusableSlot at hr
    simp only at hr
    split at hr
    · rename_i hs
      simp only [Option.some.injEq] at hr
      subst hr
      simp only [Bool.and_eq_true, decide_eq_true_eq, beq_iff_eq] at hs
      exact ⟨hs.1, hs.2.1, hs.2.2, rfl⟩
    · obtain ⟨h1, h2⟩ := lowestSlot_some hr
      simp only [Bool.and_eq_true, beq_iff_eq] at h2
      exact ⟨by omega, h2.1, h2.2, rfl⟩
  | none =>
    simp only
    rcases allocTip_cases cfg (defaultTip cfg ch.iron) tips with ⟨j, hj, hjn, h'⟩ | ⟨j, hj, -, h'⟩ | h'
    · rw [h']
      exact .inl ⟨j, by omega, by rw [allocated_iff, hjn]; exact hnf, by unfold TipRecord.iron; rw [hjn]; exact hi,
        rfl⟩
    · rw [h']
      refine .inl ⟨j, by omega, ?_, ?_, rfl⟩ <;> simp only <;> rw [tipAt_set_same _ hj]
      · rw [allocated_iff]; exact hnf
      · exact hi
    · rw [h']; exact .inr rfl

/-- R194: an iron change leaves the pool alone or allocates the new type's default tip. -/
theorem Channel.setIron_pool (cfg : Config) (tips : List TipRecord) (ch : Channel) (t : Iron) :
    (ch.setIron cfg tips t).2 = tips
      ∨ (t ≠ .unknown ∧ (ch.setIron cfg tips t).2 = (allocTip cfg (defaultTip cfg t) tips).2) := by
  unfold Channel.setIron
  split
  · exact .inl rfl
  · simp only
    split
    · exact .inl rfl
    · rename_i ht
      unfold Channel.takeIron
      rcases Channel.tipSel_pool cfg tips
        (Channel.measReset cfg { (if ch.iron = .unknown then ch else ch.dropIron cfg) with iron := t })
        with h | h
      · exact .inl h
      · exact .inr ⟨ht, h⟩

/-- R31: the pool keeps its one form through an iron change. -/
theorem Channel.setIron_length (cfg : Config) (tips : List TipRecord) (ch : Channel) (t : Iron) :
    (ch.setIron cfg tips t).2.length = tips.length := by
  rcases Channel.setIron_pool cfg tips ch t with h | ⟨-, h⟩ <;> rw [h]
  exact allocTip_length _ _ _

/-- R31, R65: the pool has its one form after reset. -/
theorem reset_poolWf (cfg : Config) (v : BitVec 16) (b : Bool) :
    (State.resetWith cfg v b).poolWf = true := by
  simp [State.poolWf, State.resetWith]

end Sys2Proof.Machine
end

