-- ==== Sys2Proof/Laws/Inline.lean ====
section
/-! SUPPORT. What an operation called inside a rule (`after`, R16) does, one lemma per operation that rules
call, in terms of the functions of a channel; and the small laws of `updChan` they compose by. -/

namespace Sys2Proof.Machine

/-! `updChan` -/

@[simp] theorem State.chan_updChan (s : State) (c : Chan) (f : Channel → Channel) :
    (s.updChan c f).chan c = f (s.chan c) := by cases c <;> rfl

theorem State.chan_updChan_other (s : State) {c d : Chan} (f : Channel → Channel) (h : d ≠ c) :
    (s.updChan c f).chan d = s.chan d := by cases c <;> cases d <;> first | rfl | exact absurd rfl h

@[simp] theorem State.updChan_updChan (s : State) (c : Chan) (f g : Channel → Channel) :
    (s.updChan c f).updChan c g = s.updChan c fun x => g (f x) := by cases c <;> rfl

@[simp] theorem State.updChan_setChan (s : State) (c : Chan) (x : Channel) (g : Channel → Channel) :
    (s.setChan c x).updChan c g = s.setChan c (g x) := by cases c <;> rfl

@[simp] theorem State.setChan_setChan (s : State) (c : Chan) (x y : Channel) :
    (s.setChan c x).setChan c y = s.setChan c y := by cases c <;> rfl

@[simp] theorem State.updChan_cfg (s : State) (c : Chan) (f : Channel → Channel) :
    (s.updChan c f).cfg = s.cfg := by cases c <;> rfl

@[simp] theorem State.updChan_tips (s : State) (c : Chan) (f : Channel → Channel) :
    (s.updChan c f).tips = s.tips := by cases c <;> rfl

@[simp] theorem State.updChan_fatal (s : State) (c : Chan) (f : Channel → Channel) :
    (s.updChan c f).fatal = s.fatal := by cases c <;> rfl

@[simp] theorem State.tip_updChan (s : State) (c : Chan) (f : Channel → Channel) (i : Nat) :
    (s.updChan c f).tip i = s.tip i := by cases c <;> rfl

@[simp] theorem State.updChan_putChannel (s : State) (c : Chan) (f : Channel → Channel)
    (r : Channel × List TipRecord) : (s.updChan c f).putChannel c r = s.putChannel c r := by
  cases c <;> rfl

@[simp] theorem State.putChannel_updChan (s : State) (c : Chan) (r : Channel × List TipRecord)
    (g : Channel → Channel) : (s.putChannel c r).updChan c g = s.putChannel c (g r.1, r.2) := by
  cases c <;> rfl

@[simp] theorem State.putChannel_tip (s : State) (c : Chan) (r : Channel × List TipRecord) (i : Nat) :
    (s.putChannel c r).tip i = tipAt r.2 i := by cases c <;> rfl

theorem State.updChan_id (s : State) (c : Chan) : s.updChan c id = s := by cases c <;> rfl

theorem State.updChan_congr (s : State) (c : Chan) {f g : Channel → Channel}
    (h : f (s.chan c) = g (s.chan c)) : s.updChan c f = s.updChan c g := by
  simp only [State.updChan, h]

/-! Operations called inside a rule -/

@[simp] theorem after_chSetst (c : Chan) (t : SetTarget) (s : State) :
    after (.chSetst c t) s = s.updChan c (Channel.setState s.cfg t) := by cases c <;> rfl

@[simp] theorem after_ctlEn (c : Chan) (b : Bool) (s : State) :
    after (.ctlEn c b) s = s.updChan c (Channel.ctlEnable b) := by cases c <;> rfl

@[simp] theorem after_dccSet (c : Chan) (d : BitVec 32) (s : State) :
    after (.dccSet c d) s = s.updChan c (Channel.dccSet s.cfg d.toInt) := by cases c <;> rfl

@[simp] theorem after_dccAdv (c : Chan) (s : State) :
    after (.dccAdv c) s = s.updChan c Channel.dccAdv := by cases c <;> rfl

@[simp] theorem after_ctlLoad (c : Chan) (slot : BitVec 8) (s : State) :
    after (.ctlLoad c slot) s = s.updChan c (Channel.ctlLoad (s.tip slot.toNat)) := by cases c <;> rfl

@[simp] theorem after_chIdle (c : Chan) (ms : BitVec 32) (s : State) :
    after (.chIdle c ms) s = s.updChan c (Channel.idle s.cfg ms.toNat) := by cases c <;> rfl

@[simp] theorem after_measUpd (c : Chan) (target : BitVec 16) (s : State) :
    after (.measUpd c target) s = s.updChan c (Channel.measUpd s.cfg s.tips target.toNat) := by
  cases c <;> rfl

@[simp] theorem after_chUpddrive (c : Chan) (s : State) :
    after (.chUpddrive c) s = s.updChan c (Channel.updDrive s.cfg) := by cases c <;> rfl

@[simp] theorem after_chTipsel (c : Chan) (s : State) :
    after (.chTipsel c) s = s.putChannel c ((s.chan c).tipSel s.cfg s.tips) := by cases c <;> rfl

@[simp] theorem after_chSetiron (c : Chan) (t : Iron) (s : State) :
    after (.chSetiron c t) s = s.putChannel c ((s.chan c).setIron s.cfg s.tips t) := by cases c <;> rfl

@[simp] theorem after_chIdent (c : Chan) (raw : BitVec 16) (s : State) :
    after (.chIdent c raw) s = s.putChannel c ((s.chan c).ident s.cfg s.tips raw.toNat) := by
  cases c <;> rfl

@[simp] theorem after_measProc (c : Chan) (m : BitVec 8) (raw : BitVec 16) (s : State) :
    after (.measProc c m raw) s = (s.measProc c m raw).state := by
  show { (s.measProc c m raw).state with ret := s.ret } = _
  unfold State.measProc
  split
  · rfl
  · cases c <;> rfl

@[simp] theorem after_seqNext (s : State) : after .seqNext s = s.seqNext := rfl

@[simp] theorem after_ctrlUpdate (s : State) : after .ctrlUpdate s = s.ctrlUpdate := rfl

@[simp] theorem after_seqBuild (s : State) : after .seqBuild s = s.seqBuild := rfl

@[simp] theorem after_trapFatal (code : FatalCause) (s : State) :
    after (.trapFatal code) s = s.raiseFatal code := rfl

theorem after_chProc (c : Chan) (m : BitVec 8) (raw : BitVec 16) (s : State) :
    after (.chProc c m raw) s = { (s.chProc c m raw).state with ret := s.ret } := rfl

end Sys2Proof.Machine
end

