-- ==== Sys2Proof/Laws/PerInstr.lean ====
section
/-! SUPPORT. What is proved of every operation one by one: its word carries its opcode in bits 63:56
(30_encoding.md R91, R94, R110). -/

namespace Sys2Proof

/-- The top eight bits of an assembled word are its opcode (R91, R110). -/
theorem opField_assembleWord (op : BitVec 8) (f : Fields) : opField (assembleWord op f) = op := by
  ext i hi
  simp only [opField, assembleWord, BitVec.getElem_extractLsb', BitVec.getLsbD_append]
  simp [show ¬ (56 + i < 32) by omega, show ¬ (56 + i - 32 < 16) by omega,
    show ¬ (56 + i - 32 - 16 < 4) by omega, show ¬ (56 + i - 32 - 16 - 4 < 4) by omega,
    show 56 + i - 32 - 16 - 4 - 4 = i by omega, BitVec.getLsbD_eq_getElem hi]

end Sys2Proof

namespace Sys2Proof.Laws

/-- The word of an operation holds the operation's opcode. -/
def EncodedOpcode.Statement (i : Instr) : Prop := opField (encode i) = i.opcode

theorem EncodedOpcode.evRst :
    EncodedOpcode.Statement .evRst := opField_assembleWord _ _
theorem EncodedOpcode.evZc :
    EncodedOpcode.Statement .evZc := opField_assembleWord _ _
theorem EncodedOpcode.evTmr :
    EncodedOpcode.Statement .evTmr := opField_assembleWord _ _
theorem EncodedOpcode.evAdc (tag : BitVec 8) (raw : BitVec 16) :
    EncodedOpcode.Statement (.evAdc tag raw) := opField_assembleWord _ _
theorem EncodedOpcode.evOc :
    EncodedOpcode.Statement .evOc := opField_assembleWord _ _
theorem EncodedOpcode.ctlEnable :
    EncodedOpcode.Statement .ctlEnable := opField_assembleWord _ _
theorem EncodedOpcode.ctlDisable :
    EncodedOpcode.Statement .ctlDisable := opField_assembleWord _ _
theorem EncodedOpcode.ctlToggle :
    EncodedOpcode.Statement .ctlToggle := opField_assembleWord _ _
theorem EncodedOpcode.ctlChiptemp :
    EncodedOpcode.Statement .ctlChiptemp := opField_assembleWord _ _
theorem EncodedOpcode.chSetstate (c : Chan) (idx : BitVec 4) :
    EncodedOpcode.Statement (.chSetstate c idx) := opField_assembleWord _ _
theorem EncodedOpcode.chSettemp (c : Chan) (t : BitVec 32) :
    EncodedOpcode.Statement (.chSettemp c t) := opField_assembleWord _ _
theorem EncodedOpcode.chNextpreset (c : Chan) :
    EncodedOpcode.Statement (.chNextpreset c) := opField_assembleWord _ _
theorem EncodedOpcode.chChangetip (c : Chan) (slot : BitVec 32) :
    EncodedOpcode.Statement (.chChangetip c slot) := opField_assembleWord _ _
theorem EncodedOpcode.chInteract (c : Chan) :
    EncodedOpcode.Statement (.chInteract c) := opField_assembleWord _ _
theorem EncodedOpcode.chFixedpwr (c : Chan) (d : BitVec 32) :
    EncodedOpcode.Statement (.chFixedpwr c d) := opField_assembleWord _ _
theorem EncodedOpcode.chGetstate (c : Chan) :
    EncodedOpcode.Statement (.chGetstate c) := opField_assembleWord _ _
theorem EncodedOpcode.chGetcur (c : Chan) :
    EncodedOpcode.Statement (.chGetcur c) := opField_assembleWord _ _
theorem EncodedOpcode.chGettgt (c : Chan) :
    EncodedOpcode.Statement (.chGettgt c) := opField_assembleWord _ _
theorem EncodedOpcode.chGetpwr (c : Chan) :
    EncodedOpcode.Statement (.chGetpwr c) := opField_assembleWord _ _
theorem EncodedOpcode.chIsmod (c : Chan) :
    EncodedOpcode.Statement (.chIsmod c) := opField_assembleWord _ _
theorem EncodedOpcode.calSave (c : Chan) (i : BitVec 4) :
    EncodedOpcode.Statement (.calSave c i) := opField_assembleWord _ _
theorem EncodedOpcode.calSet (c : Chan) (i : BitVec 4) (t : BitVec 16) (m : BitVec 32) :
    EncodedOpcode.Statement (.calSet c i t m) := opField_assembleWord _ _
theorem EncodedOpcode.calGett (c : Chan) (i : BitVec 4) :
    EncodedOpcode.Statement (.calGett c i) := opField_assembleWord _ _
theorem EncodedOpcode.calGetm (c : Chan) (i : BitVec 4) :
    EncodedOpcode.Statement (.calGetm c i) := opField_assembleWord _ _
theorem EncodedOpcode.calInst (c : Chan) :
    EncodedOpcode.Statement (.calInst c) := opField_assembleWord _ _
theorem EncodedOpcode.tipAlloc (n : BitVec 16) :
    EncodedOpcode.Statement (.tipAlloc n) := opField_assembleWord _ _
theorem EncodedOpcode.tipFree (slot : BitVec 16) :
    EncodedOpcode.Statement (.tipFree slot) := opField_assembleWord _ _
theorem EncodedOpcode.tipFind (n : BitVec 16) :
    EncodedOpcode.Statement (.tipFind n) := opField_assembleWord _ _
theorem EncodedOpcode.regRd (a : BitVec 16) :
    EncodedOpcode.Statement (.regRd a) := opField_assembleWord _ _
theorem EncodedOpcode.regWr (a : BitVec 16) (v : BitVec 32) :
    EncodedOpcode.Statement (.regWr a v) := opField_assembleWord _ _
theorem EncodedOpcode.dccSet (c : Chan) (d : BitVec 32) :
    EncodedOpcode.Statement (.dccSet c d) := opField_assembleWord _ _
theorem EncodedOpcode.dccAdv (c : Chan) :
    EncodedOpcode.Statement (.dccAdv c) := opField_assembleWord _ _
theorem EncodedOpcode.dccIson (c : Chan) :
    EncodedOpcode.Statement (.dccIson c) := opField_assembleWord _ _
theorem EncodedOpcode.ctlLoad (c : Chan) (slot : BitVec 8) :
    EncodedOpcode.Statement (.ctlLoad c slot) := opField_assembleWord _ _
theorem EncodedOpcode.ctlEn (c : Chan) (b : Bool) :
    EncodedOpcode.Statement (.ctlEn c b) := opField_assembleWord _ _
theorem EncodedOpcode.pidStep (c : Chan) (target : BitVec 16) (actual : BitVec 16) :
    EncodedOpcode.Statement (.pidStep c target actual) := opField_assembleWord _ _
theorem EncodedOpcode.tbhStep (c : Chan) (target : BitVec 16) (actual : BitVec 16) :
    EncodedOpcode.Statement (.tbhStep c target actual) := opField_assembleWord _ _
theorem EncodedOpcode.muxMake (ch : Bool) (sub : Bool) (amp : Bool) (bias : Bool) (boost : Bool) :
    EncodedOpcode.Statement (.muxMake ch sub amp bias boost) := opField_assembleWord _ _
theorem EncodedOpcode.muxTag (m : BitVec 8) (c : Chan) :
    EncodedOpcode.Statement (.muxTag m c) := opField_assembleWord _ _
theorem EncodedOpcode.muxStrip (t : BitVec 8) :
    EncodedOpcode.Statement (.muxStrip t) := opField_assembleWord _ _
theorem EncodedOpcode.measSeq (c : Chan) :
    EncodedOpcode.Statement (.measSeq c) := opField_assembleWord _ _
theorem EncodedOpcode.measProc (c : Chan) (m : BitVec 8) (raw : BitVec 16) :
    EncodedOpcode.Statement (.measProc c m raw) := opField_assembleWord _ _
theorem EncodedOpcode.measTemp (c : Chan) :
    EncodedOpcode.Statement (.measTemp c) := opField_assembleWord _ _
theorem EncodedOpcode.measItemp (c : Chan) :
    EncodedOpcode.Statement (.measItemp c) := opField_assembleWord _ _
theorem EncodedOpcode.measUpd (c : Chan) (target : BitVec 16) :
    EncodedOpcode.Statement (.measUpd c target) := opField_assembleWord _ _
theorem EncodedOpcode.measDrive (c : Chan) :
    EncodedOpcode.Statement (.measDrive c) := opField_assembleWord _ _
theorem EncodedOpcode.chIdent (c : Chan) (raw : BitVec 16) :
    EncodedOpcode.Statement (.chIdent c raw) := opField_assembleWord _ _
theorem EncodedOpcode.chSetiron (c : Chan) (t : Iron) :
    EncodedOpcode.Statement (.chSetiron c t) := opField_assembleWord _ _
theorem EncodedOpcode.chTipsel (c : Chan) :
    EncodedOpcode.Statement (.chTipsel c) := opField_assembleWord _ _
theorem EncodedOpcode.chIdle (c : Chan) (ms : BitVec 32) :
    EncodedOpcode.Statement (.chIdle c ms) := opField_assembleWord _ _
theorem EncodedOpcode.chOverload (c : Chan) :
    EncodedOpcode.Statement (.chOverload c) := opField_assembleWord _ _
theorem EncodedOpcode.chUpddrive (c : Chan) :
    EncodedOpcode.Statement (.chUpddrive c) := opField_assembleWord _ _
theorem EncodedOpcode.chProc (c : Chan) (m : BitVec 8) (raw : BitVec 16) :
    EncodedOpcode.Statement (.chProc c m raw) := opField_assembleWord _ _
theorem EncodedOpcode.chSetst (c : Chan) (target : SetTarget) :
    EncodedOpcode.Statement (.chSetst c target) := opField_assembleWord _ _
theorem EncodedOpcode.seqBuild :
    EncodedOpcode.Statement .seqBuild := opField_assembleWord _ _
theorem EncodedOpcode.seqNext :
    EncodedOpcode.Statement .seqNext := opField_assembleWord _ _
theorem EncodedOpcode.ctrlUpdate :
    EncodedOpcode.Statement .ctrlUpdate := opField_assembleWord _ _
theorem EncodedOpcode.trapFatal (code : FatalCause) :
    EncodedOpcode.Statement (.trapFatal code) := opField_assembleWord _ _

end Sys2Proof.Laws
end

