-- ==== Sys2Proof/Laws/Step.lean ====
section
/-! SUPPORT. Everything a step can do, said once (00_scope.md R6, 30_encoding.md R96, 60_exceptions.md
R286). -/

namespace Sys2Proof.Machine

/-- The operation a stimulus asks for is one that can be issued. -/
theorem Stimulus.instr_issuable {st : Stimulus} {i : Instr} (h : st.instr = some i) :
    i.issuable = true := by
  cases st <;> simp only [Stimulus.instr, Option.some.injEq] at h <;> try (subst h; rfl)
  unfold commandInstr at h
  split at h
  · split at h
    · rename_i hh
      simp only [Option.some.injEq] at h
      subst h
      simp [Instr.issuable, hh]
    · cases h
  · cases h

/-- While `rst` is held the next stimulus is the reset; otherwise it is the first one pending. -/
theorem State.nextStimulus_cases {s : State} {st : Stimulus} (h : s.nextStimulus = some st) :
    (s.rst = true ∧ st = .rst) ∨ (s.rst = false ∧ s.pend.first = some st) := by
  unfold State.nextStimulus at h
  cases hr : s.rst <;> simp_all

/-- Everything a pulse can do: it is lost while `rst` is held, else it moves the latches alone. -/
theorem State.latch_cases (f : Pending → Pending) (s : State) :
    (s.rst = true ∧ s.latch f = s) ∨ (s.rst = false ∧ s.latch f = { s with pend := f s.pend }) := by
  unfold State.latch
  cases hr : s.rst <;> simp

/-- What the outside world sees: the written pins, or their reset values while `rst` is held. -/
theorem State.outputPins_cases (s : State) :
    (s.rst = false ∧ s.outputPins = s.writtenPins)
      ∨ (s.rst = true ∧ s.outputPins = (State.resetWith s.cfg s.chipTempIn true).writtenPins) := by
  unfold State.outputPins
  cases hr : s.rst <;> simp

/-- A step waits, runs one operation that can be issued, or turns a word on the command port away. -/
theorem step_cases {s t : State} (h : step s = .next t) :
    configLegal s.cfg = true
      ∧ (t = s.dropPulses
        ∨ ∃ st, s.nextStimulus = some st
          ∧ ((∃ i, st.instr = some i ∧ i.issuable = true ∧ exec i (s.beginStep st) = .next t)
            ∨ t = (s.beginStep st).rejectIllegal)) := by
  unfold step at h
  split at h
  · rename_i hc
    refine ⟨hc, ?_⟩
    split at h
    · injection h with h
      exact .inl h.symm
    · rename_i st hst
      refine .inr ⟨st, hst, ?_⟩
      split at h
      · rename_i i hi
        exact .inl ⟨i, hi, Stimulus.instr_issuable hi, h⟩
      · injection h with h
        exact .inr h.symm
  · cases h

end Sys2Proof.Machine
end

