-- ==== Sys2Proof/Machine/PinOrder.lean ====
section
/-! DEFINITION. The order in which a handler writes the output pins. 20_memory.md R80: "Output pins change in
the order the handler writes them"; 00_scope.md R14: writes take effect in program order. `exec` and `step`
answer the one state after the handler (R80: steps are atomic); here stands, line by line of the same
pseudocode, the list of the writes to pins that the handler makes on the way there, and the values the output
pins take one after the other. A write of the value a pin already holds is in the list too. Laws/PinOrder.lean
proves that the writes in this order lead from the pins before to the pins after, for every operation. -/

namespace Sys2Proof.Machine

/-- One write to an output pin of a channel (R61). -/
inductive ChannelPinWrite where
  | drive (v : BitVec 2)
  | voltSel (v : BitVec 2)
  | led (b : Bool)
deriving DecidableEq, Repr

/-- One write to an output pin (R61). `tmr_us` is constant and has no write. -/
inductive PinWrite where
  | adcStart (b : Bool)
  | adcMux (m : MuxCode)
  | tmrArm (b : Bool)
  | chan (c : Chan) (w : ChannelPinWrite)
  | refreshReq (b : Bool)
  | logReq (b : Bool)
  | fatal (b : Bool)
  | resp (v : RegWord)
  | respOk (b : Bool)
deriving DecidableEq, Repr

/-- The pins of a channel after one write. -/
def ChannelPins.write (p : ChannelPins) : ChannelPinWrite → ChannelPins
  | .drive v => { p with drive := v }
  | .voltSel v => { p with voltSel := v }
  | .led b => { p with led := b }

/-- The output pins after one write. -/
def OutputPins.write (p : OutputPins) : PinWrite → OutputPins
  | .adcStart b => { p with adcStart := b }
  | .adcMux m => { p with adcMux := m }
  | .tmrArm b => { p with tmrArm := b }
  | .chan .ch0 w => { p with ch0 := p.ch0.write w }
  | .chan .ch1 w => { p with ch1 := p.ch1.write w }
  | .refreshReq b => { p with refreshReq := b }
  | .logReq b => { p with logReq := b }
  | .fatal b => { p with fatal := b }
  | .resp v => { p with resp := v }
  | .respOk b => { p with respOk := b }

/-- The pins of a channel after writes in their order. -/
def ChannelPins.writeAll (p : ChannelPins) (ws : List ChannelPinWrite) : ChannelPins :=
  ws.foldl ChannelPins.write p

/-- The output pins after writes in their order. -/
def OutputPins.writeAll (p : OutputPins) (ws : List PinWrite) : OutputPins := ws.foldl OutputPins.write p

/-- The writes of a channel's operation as writes to the pins of channel `c`. -/
def onChan (c : Chan) (ws : List ChannelPinWrite) : List PinWrite := ws.map (.chan c)

/-! The operations on a channel -/

/-- The writes of SetState (R185): the exit action's drive before the entry action's `volt_sel`, that before
its `led`. -/
def Channel.setStatePins (cfg : Config) (tgt : SetTarget) (ch : Channel) : List ChannelPinWrite :=
  if targetState tgt = ch.state then []
  else
    (if ch.state.isRunning && !(ch.state.isHeating && (targetState tgt).isHeating) then [.drive 0] else [])
      ++ match tgt with
        | .active | .fixedPower => [.voltSel (vselOf cfg ch.iron), .led true]
        | .setback => []
        | .off | .noTool | .noTip => [.voltSel 0, .led false]

/-- The writes of Interact (R187). -/
def Channel.interactPins (cfg : Config) (ch : Channel) : List ChannelPinWrite :=
  if ch.state = .setback then ch.setStatePins cfg .active else []

/-- The writes of CH.IDLE (R197). -/
def Channel.idlePins (cfg : Config) (ms : Nat) (ch : Channel) : List ChannelPinWrite :=
  let t := satu32 (ch.idleMs.toNat + ms)
  if ch.state.isRunning = true ∧ ch.safetyOffTime.toNat * 1000 ≤ t then ch.setStatePins cfg .off
  else if ch.state = .active ∧ ch.setbackTime.toNat * 1000 ≤ t then ch.setStatePins cfg .setback
  else []

/-- The writes of CH.SETIRON's part 1 (R194): "`volt_sel` is 0 from part 1 on". -/
def Channel.dropIronPins (cfg : Config) (ch : Channel) : List ChannelPinWrite :=
  if ch.state = .overload then [.voltSel 0, .led false] else ch.setStatePins cfg .noTool

/-- The writes of CH.SETIRON (R194), part 1 before part 2. -/
def Channel.setIronPins (cfg : Config) (t : Iron) (ch : Channel) : List ChannelPinWrite :=
  if t = ch.iron then
    if t = .unknown ∧ ch.state = .off then ch.setStatePins cfg .noTool else []
  else
    let dropped := if ch.iron = .unknown then ch else ch.dropIron cfg
    (if ch.iron = .unknown then [] else ch.dropIronPins cfg)
      ++ if t ≠ .unknown ∧ dropped.state = .noTool then dropped.setStatePins cfg .off else []

/-- The writes of CH.IDENT (R191). -/
def Channel.identPins (cfg : Config) (raw : Nat) (ch : Channel) : List ChannelPinWrite :=
  let e := idResistance cfg raw
  { ch with idOhms := BitVec.ofNat 32 e }.setIronPins cfg (ironOf e)

/-- The writes of one channel's part of CTRL.UPDATE (R228): the idle timer's, those of a lost tip, then the
drive of CH.UPDDRIVE (R199). -/
def Channel.updatePins (cfg : Config) (tips : List TipRecord) (ch : Channel) : List ChannelPinWrite :=
  let idled := ch.idle cfg cfg.idleTickMs
  ch.idlePins cfg cfg.idleTickMs
    ++ (if idled.state.isHeating = true ∧ idled.tipPresent = false then idled.setStatePins cfg .noTip else [])
    ++ [.drive (ch.update cfg tips).drive]

/-! The operations on the machine -/

/-- The writes of `raise Fatal(code)` (R283). -/
def trapPins : List PinWrite := [.fatal true, .chan .ch0 (.drive 0), .chan .ch1 (.drive 0)]

/-- The writes of MEAS.PROC (R157, R158): those of its trap, when it raises one. -/
def State.measProcPins (c : Chan) (m : MuxCode) (s : State) : List PinWrite :=
  if slotOf (s.chan c).iron m = none then trapPins else []

/-- The writes of CH.PROC (R189). -/
def State.chProcPins (c : Chan) (m : MuxCode) (raw : BitVec 16) (s : State) : List PinWrite :=
  if m = mxId then
    if (s.chan c).isRunning then [] else onChan c ((s.chan c).identPins s.cfg raw.toNat)
  else s.measProcPins c m

/-- The writes of SEQ.NEXT (R227): `adc_mux` before the pulse on `adc_start`. -/
def State.seqNextPins (s : State) : List PinWrite := [.adcMux (s.qAt s.qIdx.toNat), .adcStart true]

/-- The writes of CTRL.UPDATE (R228): channel 0 first. -/
def State.ctrlUpdatePins (s : State) : List PinWrite :=
  onChan .ch0 (s.ch0.updatePins s.cfg s.tips) ++ onChan .ch1 (s.ch1.updatePins s.cfg s.tips)

/-- The writes of EV.ZC (R221): the dead interval first, the timer's pulse last. -/
def State.evZcPins (s : State) : List PinWrite :=
  if s.fatal then []
  else
    [.chan .ch0 (.drive 0), .chan .ch1 (.drive 0)]
      ++ (if (tickCounter s.cfg.refreshInterval s.refreshCnt).2 then [.refreshReq true] else [])
      ++ (if (tickCounter s.cfg.reportInterval s.reportCnt).2 then [.logReq true] else [])
      ++ if s.ctlEnabled = true ∧ s.timerArmed = false ∧ s.adcBusy = false then [.tmrArm true] else []

/-- The writes of EV.TMR (R222). -/
def State.evTmrPins (s : State) : List PinWrite :=
  if s.fatal = true ∨ s.timerArmed = false then []
  else
    let s := { s with timerArmed := false }.seqBuild
    if s.qLen = 0 then s.ctrlUpdatePins else s.seqNextPins

/-- The writes of EV.ADC after the sample was processed (R226). -/
def State.adcAdvancePins (s : State) : List PinWrite :=
  let n := s.qIdx + 1
  if n.toNat < s.qLen.toNat then { s with qIdx := n }.seqNextPins else { s with qIdx := 0 }.ctrlUpdatePins

/-- The writes of EV.ADC (R226): the sample's, then the next conversion's or the control update's. -/
def State.evAdcPins (tag : MuxCode) (raw : BitVec 16) (s : State) : List PinWrite :=
  if s.fatal then []
  else if s.adcBusy = false ∨ tag ≠ s.qAt s.qIdx.toNat then trapPins
  else
    let s := { s with adcBusy := false }
    s.chProcPins (chanOf tag) (muxStrip tag) raw
      ++ match s.chProc (chanOf tag) (muxStrip tag) raw with
        | .trapped _ => []
        | .done s => s.adcAdvancePins

/-- The writes of EV.OC (R229). -/
def State.evOcPins (s : State) : List PinWrite :=
  if s.fatal then [] else [.chan .ch0 (.drive 0), .chan .ch1 (.drive 0), .refreshReq true]

/-- The writes of CTL.DISABLE's body (R236): channel 0 first. -/
def State.disablePins (s : State) : List PinWrite :=
  onChan .ch0 (s.ch0.setStatePins s.cfg s.ch0.offTarget) ++ onChan .ch1 (s.ch1.setStatePins s.cfg s.ch1.offTarget)

/-- The writes of a register write (R271): `IRQ_CLEAR`'s, in the order of its lines. -/
def irqClearPins (v : RegWord) : List PinWrite :=
  (if v.getLsbD 8 then [.refreshReq false] else []) ++ if v.getLsbD 9 then [.logReq false] else []

/-- Every output pin written to the value it has in `p`, in the order of R61's table: R310 writes them all
and names no order (log 25). -/
def OutputPins.writes (p : OutputPins) : List PinWrite :=
  [.adcStart p.adcStart, .adcMux p.adcMux, .tmrArm p.tmrArm,
   .chan .ch0 (.drive p.ch0.drive), .chan .ch1 (.drive p.ch1.drive),
   .chan .ch0 (.voltSel p.ch0.voltSel), .chan .ch1 (.voltSel p.ch1.voltSel),
   .chan .ch0 (.led p.ch0.led), .chan .ch1 (.led p.ch1.led),
   .refreshReq p.refreshReq, .logReq p.logReq, .fatal p.fatal, .resp p.resp, .respOk p.respOk]

/-! Host commands -/

/-- The writes of a response (R98), `resp` before `resp_ok` as R283 and R284 write them (log 25). -/
def State.respPins (t : State) : List PinWrite := [.resp t.resp, .respOk t.respOk]

/-- The writes of a host command from `s` that ends in `t`: its body's if it was accepted, the trap's if it
raised one (R203, R283), none if it was rejected (R284: "no other state changes"), and the response last (R98:
"Every host command ends by writing"). -/
def commandPins (body : List PinWrite) (s t : State) : List PinWrite :=
  (if t.respOk then body else if !s.fatal && t.fatal then trapPins else []) ++ t.respPins

/-- `commandPins` of the state the command leaves. -/
def hostPins (i : Instr) (s : State) (body : List PinWrite) : List PinWrite :=
  match exec i s with
  | .next t => commandPins body s t
  | .fault _ => []
  | .refused _ => []

/-! Every operation -/

/-- The writes to output pins that an operation makes, in the order it makes them (R80). -/
def pinWrites (i : Instr) (s : State) : List PinWrite :=
  match i with
  | .evRst => (State.resetWith s.cfg s.chipTempIn s.rst).writtenPins.writes
  | .evZc => s.evZcPins
  | .evTmr => s.evTmrPins
  | .evAdc tag raw => if s.cfg.adcFs < raw.toNat then [] else s.evAdcPins tag raw
  | .evOc => s.evOcPins
  | .ctlDisable => hostPins i s s.disablePins
  | .ctlToggle => hostPins i s (if s.ctlEnabled then s.disablePins else [])
  | .chSetstate c idx =>
    let tgt := if idx = 0 then (s.chan c).offTarget else .active
    hostPins i s (onChan c ((s.chan c).setStatePins s.cfg tgt))
  | .chSettemp c _ | .chNextpreset c | .chChangetip c _ | .chInteract c =>
    hostPins i s (onChan c ((s.chan c).interactPins s.cfg))
  | .chFixedpwr c _ => hostPins i s (onChan c ((s.chan c).setStatePins s.cfg .fixedPower))
  | .regWr a v => hostPins i s (if regAt s.cfg a = some .irqClear then irqClearPins v else [])
  | .ctlEnable | .ctlChiptemp | .chGetstate _ | .chGetcur _ | .chGettgt _ | .chGetpwr _ | .chIsmod _ =>
    hostPins i s []
  | .calSave _ _ | .calSet _ _ _ _ | .calGett _ _ | .calGetm _ _ | .calInst _ => hostPins i s []
  | .tipAlloc _ | .tipFree _ | .tipFind _ | .regRd _ => hostPins i s []
  | .measProc c m _ => s.measProcPins c m
  | .chIdent c raw => onChan c ((s.chan c).identPins s.cfg raw.toNat)
  | .chSetiron c t => onChan c ((s.chan c).setIronPins s.cfg t)
  | .chIdle c ms => onChan c ((s.chan c).idlePins s.cfg ms.toNat)
  | .chOverload c => onChan c [.drive 0]
  | .chUpddrive c => onChan c [.drive ((s.chan c).updDrive s.cfg).drive]
  | .chProc c m raw => s.chProcPins c m raw
  | .chSetst c tgt => onChan c ((s.chan c).setStatePins s.cfg tgt)
  | .seqNext => s.seqNextPins
  | .ctrlUpdate => s.ctrlUpdatePins
  | .trapFatal _ => trapPins
  | .dccSet _ _ | .dccAdv _ | .dccIson _ | .ctlLoad _ _ | .ctlEn _ _ | .pidStep _ _ _ | .tbhStep _ _ _ => []
  | .muxMake _ _ _ _ _ | .muxTag _ _ | .muxStrip _ => []
  | .measSeq _ | .measTemp _ | .measItemp _ | .measUpd _ _ | .measDrive _ | .chTipsel _ | .seqBuild => []

/-- The writes to output pins of one step, in order: the pulse pins fall first (log 4), then the operation
taken writes its own; a word turned away writes its response (R96). -/
def stepPinWrites (s : State) : List PinWrite :=
  if configLegal s.cfg then
    [.adcStart false, .tmrArm false]
      ++ match s.nextStimulus with
        | none => []
        | some st =>
          match st.instr with
          | some i => pinWrites i (s.beginStep st)
          | none => (s.beginStep st).rejectIllegal.respPins
  else []

/-- What the outside world sees on the output pins during one step (R80): the pins before it, then one value
after each write. While `rst` is held the pins show their reset values throughout (R310). -/
def State.pinHistory (s : State) : List OutputPins :=
  if s.rst then [s.outputPins] else (stepPinWrites s).scanl OutputPins.write s.writtenPins

end Sys2Proof.Machine
end

