-- ==== Sys2Proof/Laws/PinOrder.lean ====
section
/-! SUPPORT. The writes of Machine/PinOrder.lean, made in their order, lead from the output pins before an
operation to the output pins after it (20_memory.md R80): one lemma per operation, then `exec` and `step`. -/

namespace Sys2Proof.Machine

/-! Writes in a row -/

@[simp] theorem ChannelPins.writeAll_nil (p : ChannelPins) : p.writeAll [] = p := rfl

@[simp] theorem ChannelPins.writeAll_append (p : ChannelPins) (a b : List ChannelPinWrite) :
    p.writeAll (a ++ b) = (p.writeAll a).writeAll b := List.foldl_append

@[simp] theorem OutputPins.writeAll_nil (p : OutputPins) : p.writeAll [] = p := rfl

@[simp] theorem OutputPins.writeAll_append (p : OutputPins) (a b : List PinWrite) :
    p.writeAll (a ++ b) = (p.writeAll a).writeAll b := List.foldl_append

theorem OutputPins.writeAll_onChan0 (ws : List ChannelPinWrite) (p : OutputPins) :
    p.writeAll (onChan .ch0 ws) = { p with ch0 := p.ch0.writeAll ws } := by
  induction ws generalizing p with
  | nil => rfl
  | cons w ws ih => exact ih _

theorem OutputPins.writeAll_onChan1 (ws : List ChannelPinWrite) (p : OutputPins) :
    p.writeAll (onChan .ch1 ws) = { p with ch1 := p.ch1.writeAll ws } := by
  induction ws generalizing p with
  | nil => rfl
  | cons w ws ih => exact ih _

/-- A channel replaced by one whose pins the writes lead to. -/
theorem State.setChan_pins (s : State) (c : Chan) {x : Channel} {ws : List ChannelPinWrite}
    (h : x.pins = (s.chan c).pins.writeAll ws) :
    (s.setChan c x).writtenPins = s.writtenPins.writeAll (onChan c ws) := by
  cases c
  · rw [OutputPins.writeAll_onChan0]; show State.writtenPins { s with ch0 := x } = _
    unfold State.writtenPins; rw [show x.pins = _ from h]; rfl
  · rw [OutputPins.writeAll_onChan1]; show State.writtenPins { s with ch1 := x } = _
    unfold State.writtenPins; rw [show x.pins = _ from h]; rfl

theorem State.setChan_pins_same (s : State) (c : Chan) {x : Channel} (h : x.pins = (s.chan c).pins) :
    (s.setChan c x).writtenPins = s.writtenPins := State.setChan_pins s c (ws := []) h

/-! The operations on a channel -/

theorem Channel.setState_pins (cfg : Config) (tgt : SetTarget) (ch : Channel) :
    (ch.setState cfg tgt).pins = ch.pins.writeAll (ch.setStatePins cfg tgt) := by
  unfold Channel.setState Channel.setStatePins
  split
  · rfl
  · unfold Channel.enterState Channel.exitRunning Channel.ctlEnable Channel.dccSet
    cases tgt <;> simp only <;> repeat' split
    all_goals rfl

theorem Channel.interact_pins (cfg : Config) (ch : Channel) :
    (ch.interact cfg).pins = ch.pins.writeAll (ch.interactPins cfg) := by
  unfold Channel.interact Channel.interactPins
  simp only
  split
  · exact Channel.setState_pins cfg .active { ch with idleMs := 0 }
  · rfl

theorem Channel.idle_pins (cfg : Config) (ms : Nat) (ch : Channel) :
    (ch.idle cfg ms).pins = ch.pins.writeAll (ch.idlePins cfg ms) := by
  unfold Channel.idle Channel.idlePins
  simp only
  split
  · exact Channel.setState_pins cfg .off { ch with idleMs := _ }
  · split
    · exact Channel.setState_pins cfg .setback { ch with idleMs := _ }
    · rfl

theorem Channel.tipSel_pins (cfg : Config) (tips : List TipRecord) (ch : Channel) :
    (ch.tipSel cfg tips).1.pins = ch.pins := by rw [Channel.tipSel_frame]; rfl

theorem Channel.tipSel_state (cfg : Config) (tips : List TipRecord) (ch : Channel) :
    (ch.tipSel cfg tips).1.state = ch.state := by rw [Channel.tipSel_frame]

theorem Channel.dropIron_pins (cfg : Config) (ch : Channel) :
    (ch.dropIron cfg).pins = ch.pins.writeAll (ch.dropIronPins cfg) := by
  unfold Channel.dropIron Channel.dropIronPins
  simp only
  split
  · rfl
  · exact Channel.setState_pins cfg .noTool ch

/-- R194: part 2 of an iron change writes pins only to leave `noTool`. -/
theorem Channel.takeIron_pins (cfg : Config) (tips : List TipRecord) (t : Iron) (ch : Channel) :
    (ch.takeIron cfg tips t).1.pins
      = ch.pins.writeAll (if ch.state = .noTool then ch.setStatePins cfg .off else []) := by
  have key : ∀ x : Channel, x.state = ch.state → x.pins = ch.pins →
      (if x.state = .noTool then x.setState cfg .off else x).pins
        = ch.pins.writeAll (if ch.state = .noTool then ch.setStatePins cfg .off else []) := by
    intro x hs hp
    rw [hs]
    split
    · rw [Channel.setState_pins, hp]
      unfold Channel.setStatePins
      rw [hs]
    · exact hp
  unfold Channel.takeIron
  simp only
  split
  · exact key _ (Channel.tipSel_state _ _ _) (Channel.tipSel_pins _ _ _)
  · exact key _ (Channel.tipSel_state _ _ _) (Channel.tipSel_pins _ _ _)

theorem Channel.setIron_pins (cfg : Config) (tips : List TipRecord) (t : Iron) (ch : Channel) :
    (ch.setIron cfg tips t).1.pins = ch.pins.writeAll (ch.setIronPins cfg t) := by
  have hd : (if ch.iron = .unknown then ch else ch.dropIron cfg).pins
      = ch.pins.writeAll (if ch.iron = .unknown then [] else ch.dropIronPins cfg) := by
    split
    · rfl
    · exact Channel.dropIron_pins cfg ch
  unfold Channel.setIron Channel.setIronPins
  split
  · split
    · exact Channel.setState_pins cfg .noTool ch
    · rfl
  · simp only
    rw [ChannelPins.writeAll_append, ← hd]
    by_cases ht : t = .unknown
    · simp [ht]
    · rw [if_neg ht, Channel.takeIron_pins]
      simp [ht]

theorem Channel.ident_pins (cfg : Config) (tips : List TipRecord) (raw : Nat) (ch : Channel) :
    (ch.ident cfg tips raw).1.pins = ch.pins.writeAll (ch.identPins cfg raw) :=
  Channel.setIron_pins cfg tips (ironOf (idResistance cfg raw))
    { ch with idOhms := BitVec.ofNat 32 (idResistance cfg raw) }

theorem Channel.updDrive_pins (cfg : Config) (ch : Channel) :
    (ch.updDrive cfg).pins = ch.pins.writeAll [.drive (ch.updDrive cfg).drive] := by
  show _ = { ch.pins with drive := (ch.updDrive cfg).drive }
  conv => lhs; rw [Channel.updDrive_frame]
  rfl

theorem Channel.update_pins (cfg : Config) (tips : List TipRecord) (ch : Channel) :
    (ch.update cfg tips).pins = ch.pins.writeAll (ch.updatePins cfg tips) := by
  unfold Channel.updatePins
  rw [ChannelPins.writeAll_append, ChannelPins.writeAll_append, ← Channel.idle_pins]
  unfold Channel.update
  simp only
  rw [Channel.updDrive_pins]
  congr 1
  rw [Channel.measUpd_frame]
  show Channel.pins (if _ then _ else _) = _
  split
  · exact Channel.setState_pins cfg .noTip _
  · rfl

theorem Channel.pidStep_pins (cfg : Config) (target actual : Int) (ch : Channel) :
    (ch.pidStep cfg target actual).2.pins = ch.pins := by
  unfold Channel.pidStep
  split <;> rfl

theorem Channel.tbhStep_pins (cfg : Config) (target actual : Int) (ch : Channel) :
    (ch.tbhStep cfg target actual).2.pins = ch.pins := by
  unfold Channel.tbhStep
  split <;> rfl

theorem Channel.measDrive_pins (cfg : Config) (ch : Channel) : (ch.measDrive cfg).2.pins = ch.pins := by
  unfold Channel.measDrive
  rw [Channel.dccAdv_frame]
  rfl

theorem Channel.forgetSlot_pins (i : BitVec 16) (ch : Channel) : (ch.forgetSlot i).pins = ch.pins := by
  unfold Channel.forgetSlot
  split <;> rfl

/-! The operations on the machine -/

theorem State.raiseFatal_pins (s : State) (code : FatalCause) :
    (s.raiseFatal code).writtenPins = s.writtenPins.writeAll trapPins := rfl

theorem State.measProc_pins (c : Chan) (m : MuxCode) (raw : BitVec 16) (s : State) :
    (s.measProc c m raw).state.writtenPins = s.writtenPins.writeAll (s.measProcPins c m) := by
  unfold State.measProc State.measProcPins
  split
  · rename_i h; rw [if_pos h]; rfl
  · rename_i slot h
    rw [if_neg (by simp [h])]
    exact State.setChan_pins_same s c (by cases slot <;> rfl)

theorem State.putChannel_pins (s : State) (c : Chan) {r : Channel × List TipRecord}
    {ws : List ChannelPinWrite} (h : r.1.pins = (s.chan c).pins.writeAll ws) :
    (s.putChannel c r).writtenPins = s.writtenPins.writeAll (onChan c ws) :=
  (show (s.putChannel c r).writtenPins = (s.setChan c r.1).writtenPins from rfl).trans
    (State.setChan_pins s c h)

theorem State.chProc_pins (c : Chan) (m : MuxCode) (raw : BitVec 16) (s : State) :
    (s.chProc c m raw).state.writtenPins = s.writtenPins.writeAll (s.chProcPins c m raw) := by
  unfold State.chProc State.chProcPins
  split
  · split
    · rfl
    · exact State.putChannel_pins s c (Channel.ident_pins _ _ _ _)
  · exact State.measProc_pins c m raw s

theorem State.ctrlUpdate_pins (s : State) :
    s.ctrlUpdate.writtenPins = s.writtenPins.writeAll s.ctrlUpdatePins := by
  unfold State.ctrlUpdatePins
  rw [OutputPins.writeAll_append, OutputPins.writeAll_onChan0, OutputPins.writeAll_onChan1]
  unfold State.ctrlUpdate State.writtenPins
  simp only [Channel.update_pins]
  rfl

theorem State.seqNext_pins (s : State) :
    s.seqNext.writtenPins = s.writtenPins.writeAll s.seqNextPins := rfl

theorem Channel.buildPart_pins (cfg : Config) (ch : Channel) : (ch.buildPart cfg).2.pins = ch.pins := by
  unfold Channel.buildPart
  repeat' split
  all_goals (try simp only) ; (repeat' split) <;> rfl

theorem State.seqBuild_pins (s : State) : s.seqBuild.writtenPins = s.writtenPins := by
  unfold State.seqBuild State.writtenPins
  simp only [Channel.buildPart_pins]
  rfl

theorem State.evZc_pins (s : State) : s.evZc.writtenPins = s.writtenPins.writeAll s.evZcPins := by
  unfold State.evZc State.evZcPins
  split
  · rfl
  · unfold State.zcArm
    cases h1 : s.ctlEnabled <;> cases h2 : s.timerArmed <;> cases h3 : s.adcBusy <;>
      cases h4 : (tickCounter s.cfg.refreshInterval s.refreshCnt).2 <;>
      cases h5 : (tickCounter s.cfg.reportInterval s.reportCnt).2 <;>
      simp [State.zcAlways, State.writtenPins, OutputPins.writeAll, OutputPins.write, ChannelPins.write, Channel.pins, State.tmrUs, *]

theorem State.evTmr_pins (s : State) : s.evTmr.writtenPins = s.writtenPins.writeAll s.evTmrPins := by
  unfold State.evTmr State.evTmrPins
  by_cases hf : s.fatal = true
  · rw [if_pos hf, if_pos (.inl hf)]; rfl
  · by_cases ht : s.timerArmed = false
    · rw [if_neg hf, if_pos ht, if_pos (.inr ht)]; rfl
    · rw [if_neg hf, if_neg ht, if_neg (not_or.2 ⟨hf, ht⟩)]
      have hb : ({ s with timerArmed := false }.seqBuild).writtenPins = s.writtenPins :=
        State.seqBuild_pins { s with timerArmed := false }
      simp only
      rw [← hb]
      split
      · exact State.ctrlUpdate_pins _
      · exact State.seqNext_pins _

theorem State.adcAdvance_pins (s : State) :
    s.adcAdvance.writtenPins = s.writtenPins.writeAll s.adcAdvancePins := by
  unfold State.adcAdvance State.adcAdvancePins
  simp only
  split
  · rfl
  · exact State.ctrlUpdate_pins { s with qIdx := 0 }

theorem State.evAdc_pins (tag : MuxCode) (raw : BitVec 16) (s : State) :
    (s.evAdc tag raw).writtenPins = s.writtenPins.writeAll (s.evAdcPins tag raw) := by
  unfold State.evAdc State.evAdcPins
  split
  · rfl
  · split
    · rfl
    · simp only [OutputPins.writeAll_append]
      have h := State.chProc_pins (chanOf tag) (muxStrip tag) raw { s with adcBusy := false }
      rw [show ({ s with adcBusy := false } : State).writtenPins = s.writtenPins from rfl] at h
      rw [← h]
      split <;> rename_i x hx <;> rw [hx]
      · rfl
      · exact State.adcAdvance_pins x

theorem State.evOc_pins (s : State) : s.evOc.writtenPins = s.writtenPins.writeAll s.evOcPins := by
  unfold State.evOc State.evOcPins
  split <;> rfl

theorem State.disable_pins (s : State) :
    s.disable.writtenPins = s.writtenPins.writeAll s.disablePins := by
  unfold State.disablePins
  rw [OutputPins.writeAll_append, OutputPins.writeAll_onChan0, OutputPins.writeAll_onChan1]
  unfold State.disable State.writtenPins
  simp only [Channel.setState_pins]
  rfl

/-- Writing every pin leaves nothing of what was there but the constant `tmr_us`. -/
theorem OutputPins.writeAll_writes {p q : OutputPins} (h : p.tmrUs = q.tmrUs) : p.writeAll q.writes = q := by
  cases q
  simp_all [OutputPins.writeAll, OutputPins.writes, OutputPins.write, ChannelPins.write]

theorem execEvRst_pins {s t : State} (h : execEvRst s = .next t) :
    t.writtenPins = s.writtenPins.writeAll (State.resetWith s.cfg s.chipTempIn s.rst).writtenPins.writes := by
  injection h with h
  subst h
  have htmr : s.writtenPins.tmrUs = (State.resetWith s.cfg s.chipTempIn s.rst).writtenPins.tmrUs := by
    simp only [State.writtenPins, State.tmrUs, State.resetWith]
  generalize State.resetWith s.cfg s.chipTempIn s.rst = t at htmr ⊢
  exact (OutputPins.writeAll_writes htmr).symm

/-! Host commands -/

/-- A command from `s` may end in `t` with these body writes: the body's writes and the response lead from
the pins of `s` to the pins of `t`. -/
def EndsWith (body : List PinWrite) (s t : State) : Prop :=
  t.writtenPins = s.writtenPins.writeAll (commandPins body s t)

theorem EndsWith.reject (body : List PinWrite) (s : State) (e : RejectCode) :
    EndsWith body s (s.reject e) := by
  have h : commandPins body s (s.reject e) = (s.reject e).respPins := by
    unfold commandPins
    cases h : s.fatal <;> simp [State.reject, h]
  unfold EndsWith
  rw [h]
  rfl

theorem EndsWith.accept {body : List PinWrite} {s x : State} (v : RegWord)
    (h : x.writtenPins = s.writtenPins.writeAll body) : EndsWith body s (x.accept v) := by
  show (x.accept v).writtenPins = s.writtenPins.writeAll (body ++ (x.accept v).respPins)
  rw [OutputPins.writeAll_append, ← h]
  rfl

theorem EndsWith.trap (body : List PinWrite) {s : State} (code : FatalCause) (h : s.fatal = false) :
    EndsWith body s (s.raiseFatalInCommand code) := by
  unfold EndsWith commandPins
  rw [h]
  rfl

/-- A command that is rejected while the machine is halted ends as its rule does otherwise. -/
theorem EndsWith.hostCommand {body : List PinWrite} {s : State} {f : State → State}
    (h : s.fatal = false → EndsWith body s (f s)) : EndsWith body s (s.hostCommand f) :=
  State.hostCommand_induct (P := EndsWith body s) (fun _ => EndsWith.reject body s .halted) h

theorem State.setTip_pins (s : State) (i : Nat) (r : TipRecord) :
    (s.setTip i r).writtenPins = s.writtenPins := rfl

theorem ChReg.write_pins (v : RegWord) (ch : Channel) (r : ChReg) : (r.write v ch).pins = ch.pins := by
  cases r <;> rfl

theorem State.regWrite_pins (v : RegWord) (s : State) (r : Reg) :
    (s.regWrite v r).writtenPins = s.writtenPins.writeAll (if r = .irqClear then irqClearPins v else []) := by
  cases r with
  | irqClear =>
    simp only [if_true, irqClearPins]
    cases h8 : v.getLsbD 8 <;> cases h9 : v.getLsbD 9 <;>
      simp_all [State.regWrite, State.irqClear, State.writtenPins, OutputPins.writeAll, OutputPins.write,
        State.tmrUs]
  | chan c r => exact State.setChan_pins_same s c (ChReg.write_pins v _ r)
  | tip i r => rfl
  | ctlStatus | seqPtr | refreshCnt | reportCnt | chipTemp | seqQ => rfl

/-- The whole of a host command's writes, from how its rule ends. -/
theorem hostPins_of_endsWith {i : Instr} {s t : State} {body : List PinWrite} (h : exec i s = .next t)
    (he : EndsWith body s t) : t.writtenPins = s.writtenPins.writeAll (hostPins i s body) := by
  rw [show hostPins i s body = commandPins body s t by unfold hostPins; rw [h]]
  exact he

theorem EndsWith.setState {s : State} (c : Chan) (tgt : SetTarget) (v : RegWord) :
    EndsWith (onChan c ((s.chan c).setStatePins s.cfg tgt)) s
      ((s.setChan c ({ s.chan c with idleMs := 0 }.setState s.cfg tgt)).accept v) :=
  .accept v (State.setChan_pins s c (Channel.setState_pins _ _ _))

/-- A user interaction of a channel that differs in no pin and not in the state. -/
theorem EndsWith.interact {s : State} (c : Chan) {x : Channel} (v : RegWord)
    (hs : x.state = (s.chan c).state) (hi : x.iron = (s.chan c).iron) (hp : x.pins = (s.chan c).pins) :
    EndsWith (onChan c ((s.chan c).interactPins s.cfg)) s ((s.setChan c (x.interact s.cfg)).accept v) := by
  refine .accept v (State.setChan_pins s c ?_)
  rw [Channel.interact_pins, hp]
  unfold Channel.interactPins Channel.setStatePins
  rw [hs, hi]

theorem endsWith_chSetstate (c : Chan) (idx : BitVec 4) {s t : State} (h : execChSetstate c idx s = .next t) :
    EndsWith (onChan c ((s.chan c).setStatePins s.cfg (if idx = 0 then (s.chan c).offTarget else .active))) s t := by
  injection h with h
  subst h
  refine .hostCommand fun _ => ?_
  simp only
  split
  · exact .setState c _ 0
  · repeat' split
    all_goals first | exact .reject _ _ _ | exact .setState c _ 0

theorem endsWith_chSettemp (c : Chan) (v : BitVec 32) {s t : State} (h : execChSettemp c v s = .next t) :
    EndsWith (onChan c ((s.chan c).interactPins s.cfg)) s t := by
  injection h with h
  subst h
  refine .hostCommand fun _ => ?_
  simp only
  split
  · exact .reject _ _ _
  · exact .interact c 0 rfl rfl rfl

theorem endsWith_chNextpreset (c : Chan) {s t : State} (h : execChNextpreset c s = .next t) :
    EndsWith (onChan c ((s.chan c).interactPins s.cfg)) s t := by
  injection h with h
  subst h
  exact .hostCommand fun _ => .interact c _ rfl rfl rfl

theorem endsWith_chChangetip (c : Chan) (slot : BitVec 32) {s t : State}
    (h : execChChangetip c slot s = .next t) : EndsWith (onChan c ((s.chan c).interactPins s.cfg)) s t := by
  injection h with h
  subst h
  refine .hostCommand fun hf => ?_
  simp only
  repeat' split
  · exact .reject _ _ _
  · exact .reject _ _ _
  · exact .trap _ _ hf
  · exact .interact c 0 rfl rfl rfl

theorem endsWith_chInteract (c : Chan) {s t : State} (h : execChInteract c s = .next t) :
    EndsWith (onChan c ((s.chan c).interactPins s.cfg)) s t := by
  injection h with h
  subst h
  exact .hostCommand fun _ => .interact c 0 rfl rfl rfl

theorem endsWith_chFixedpwr (c : Chan) (d : BitVec 32) {s t : State} (h : execChFixedpwr c d s = .next t) :
    EndsWith (onChan c ((s.chan c).setStatePins s.cfg .fixedPower)) s t := by
  injection h with h
  subst h
  refine .hostCommand fun _ => ?_
  simp only
  repeat' split
  all_goals first | exact .reject _ _ _ | refine .accept 0 (State.setChan_pins s c ?_)
  · rename_i hc
    rw [show (s.chan c).setStatePins s.cfg .fixedPower = [] by
      unfold Channel.setStatePins; exact if_pos hc.symm]
    rfl
  · exact Channel.setState_pins _ _ _

theorem endsWith_ctlDisable {s t : State} (h : execCtlDisable s = .next t) : EndsWith s.disablePins s t := by
  injection h with h
  subst h
  exact .hostCommand fun _ => .accept 0 s.disable_pins

theorem endsWith_ctlToggle {s t : State} (h : execCtlToggle s = .next t) :
    EndsWith (if s.ctlEnabled then s.disablePins else []) s t := by
  injection h with h
  subst h
  refine .hostCommand fun _ => ?_
  split
  · exact .accept 0 s.disable_pins
  · exact .accept 1 rfl

theorem endsWith_tipFree (slot : BitVec 16) {s t : State} (h : execTipFree slot s = .next t) :
    EndsWith [] s t := by
  injection h with h
  subst h
  refine .hostCommand fun _ => ?_
  simp only
  repeat' split
  · exact .reject _ _ _
  · exact .reject _ _ _
  · refine .accept 0 ?_
    unfold State.writtenPins
    simp only [Channel.forgetSlot_pins]
    rfl

theorem endsWith_regWr (a : BitVec 16) (v : BitVec 32) {s t : State} (h : execRegWr a v s = .next t) :
    EndsWith (if regAt s.cfg a = some .irqClear then irqClearPins v else []) s t := by
  injection h with h
  subst h
  refine .hostCommand fun _ => ?_
  cases hr : regAt s.cfg a with
  | none => exact .reject _ _ _
  | some r =>
    simp only [Option.some.injEq]
    repeat' split
    all_goals first
      | exact .reject _ _ _
      | (refine .accept 0 ?_; rw [State.regWrite_pins]; simp_all)

/-- R80: for every operation, its writes in their order lead from the output pins before it to those after. -/
theorem exec_pins (i : Instr) {s t : State} (h : exec i s = .next t) :
    t.writtenPins = s.writtenPins.writeAll (pinWrites i s) := by
  cases i with
  | evRst => exact execEvRst_pins h
  | evZc => injection h with h; subst h; exact s.evZc_pins
  | evTmr => injection h with h; subst h; exact s.evTmr_pins
  | evAdc tag raw =>
    show _ = s.writtenPins.writeAll (if s.cfg.adcFs < raw.toNat then [] else s.evAdcPins tag raw)
    change execEvAdc tag raw s = .next t at h
    unfold execEvAdc at h
    split at h
    · cases h
    · rename_i hr
      injection h with h
      subst h
      rw [if_neg hr]
      exact State.evAdc_pins tag raw s
  | evOc => injection h with h; subst h; exact s.evOc_pins
  | ctlDisable => exact hostPins_of_endsWith h (endsWith_ctlDisable h)
  | ctlToggle => exact hostPins_of_endsWith h (endsWith_ctlToggle h)
  | chSetstate c idx => exact hostPins_of_endsWith h (endsWith_chSetstate c idx h)
  | chSettemp c v => exact hostPins_of_endsWith h (endsWith_chSettemp c v h)
  | chNextpreset c => exact hostPins_of_endsWith h (endsWith_chNextpreset c h)
  | chChangetip c slot => exact hostPins_of_endsWith h (endsWith_chChangetip c slot h)
  | chInteract c => exact hostPins_of_endsWith h (endsWith_chInteract c h)
  | chFixedpwr c d => exact hostPins_of_endsWith h (endsWith_chFixedpwr c d h)
  | regWr a v => exact hostPins_of_endsWith h (endsWith_regWr a v h)
  | ctlEnable | ctlChiptemp =>
    refine hostPins_of_endsWith h ?_
    injection h with h
    subst h
    exact .hostCommand fun _ => .accept _ rfl
  | chGetstate | chGetcur | chGettgt | chGetpwr | chIsmod | calInst =>
    refine hostPins_of_endsWith h ?_
    injection h with h
    subst h
    exact .hostCommand fun _ => .accept _ rfl
  | tipFree slot => exact hostPins_of_endsWith h (endsWith_tipFree slot h)
  | calSave | calSet | calGett | calGetm | tipAlloc | tipFind =>
    refine hostPins_of_endsWith h ?_
    injection h with h
    subst h
    refine .hostCommand fun _ => ?_
    try simp only
    repeat' split
    all_goals first | exact .reject _ _ _ | exact .accept _ rfl
  | regRd a =>
    refine hostPins_of_endsWith h ?_
    change execRegRd a s = .next t at h
    unfold execRegRd at h
    repeat' split at h
    all_goals (injection h with h; subst h; first | exact .reject _ _ _ | exact .accept _ rfl)
  | measProc c m raw => injection h with h; subst h; exact State.measProc_pins c m raw s
  | chIdent c raw => injection h with h; subst h; exact State.putChannel_pins s c (Channel.ident_pins _ _ _ _)
  | chSetiron c v => injection h with h; subst h; exact State.putChannel_pins s c (Channel.setIron_pins _ _ _ _)
  | chIdle c ms => injection h with h; subst h; exact State.setChan_pins s c (Channel.idle_pins _ _ _)
  | chOverload c => injection h with h; subst h; exact State.setChan_pins s c rfl
  | chUpddrive c => injection h with h; subst h; exact State.setChan_pins s c (Channel.updDrive_pins _ _)
  | chProc c m raw => injection h with h; subst h; exact State.chProc_pins c m raw s
  | chSetst c v => injection h with h; subst h; exact State.setChan_pins s c (Channel.setState_pins _ _ _)
  | seqNext => injection h with h; subst h; exact s.seqNext_pins
  | ctrlUpdate => injection h with h; subst h; exact s.ctrlUpdate_pins
  | trapFatal code => injection h with h; subst h; exact s.raiseFatal_pins code
  | chTipsel c =>
    injection h with h; subst h
    exact State.putChannel_pins s c (ws := []) (Channel.tipSel_pins _ _ _)
  | seqBuild => injection h with h; subst h; exact s.seqBuild_pins
  | dccSet c d => injection h with h; subst h; exact State.setChan_pins_same s c rfl
  | dccAdv c =>
    injection h with h; subst h
    exact State.setChan_pins_same s c (by rw [Channel.dccAdv_frame]; rfl)
  | ctlLoad c slot => injection h with h; subst h; exact State.setChan_pins_same s c rfl
  | ctlEn c b =>
    injection h with h; subst h
    exact State.setChan_pins_same s c (by rw [Channel.ctlEnable_frame]; rfl)
  | measUpd c v =>
    injection h with h; subst h
    exact State.setChan_pins_same s c (by rw [Channel.measUpd_frame]; rfl)
  | pidStep c a b =>
    injection h with h; subst h
    exact State.setChan_pins_same s c (Channel.pidStep_pins _ _ _ _)
  | tbhStep c a b =>
    injection h with h; subst h
    exact State.setChan_pins_same s c (Channel.tbhStep_pins _ _ _ _)
  | measDrive c =>
    injection h with h; subst h
    exact State.setChan_pins_same s c (Channel.measDrive_pins _ _)
  | dccIson | muxMake | muxTag | muxStrip | measSeq | measTemp | measItemp =>
    injection h with h; subst h; rfl

/-- R80: the same of a step, the pulses' fall (log 4) included. -/
theorem step_pins {s t : State} (h : step s = .next t) :
    t.writtenPins = s.writtenPins.writeAll (stepPinWrites s) := by
  unfold stepPinWrites
  unfold step at h
  split at h
  · rename_i hc
    rw [if_pos hc, OutputPins.writeAll_append]
    cases hn : s.nextStimulus with
    | none => rw [hn] at h; injection h with h; subst h; rfl
    | some st =>
      rw [hn] at h
      show t.writtenPins = OutputPins.writeAll (s.beginStep st).writtenPins _
      cases hi : st.instr with
      | some i => simp only [hi] at h ⊢; exact exec_pins i h
      | none => simp only [hi] at h ⊢; injection h with h; subst h; rfl
  · cases h

/-- A list of values, one after each write, ends at the value after all of them. -/
theorem scanl_getLast? (ws : List PinWrite) (p : OutputPins) :
    (ws.scanl OutputPins.write p).getLast? = some (p.writeAll ws) := by
  induction ws generalizing p with
  | nil => rfl
  | cons w ws ih =>
    rw [List.scanl_cons, OutputPins.writeAll, List.foldl_cons, ← OutputPins.writeAll, ← ih]
    cases hs : List.scanl OutputPins.write (p.write w) ws with
    | nil => cases ws <;> simp at hs
    | cons a l => rfl

theorem State.measProc_rst (c : Chan) (m : MuxCode) (raw : BitVec 16) (s : State) :
    (s.measProc c m raw).state.rst = s.rst := by
  unfold State.measProc
  split
  · rfl
  · exact State.setChan_rst _ _ _

theorem State.chProc_rst (c : Chan) (m : MuxCode) (raw : BitVec 16) (s : State) :
    (s.chProc c m raw).state.rst = s.rst := by
  unfold State.chProc
  split
  · split
    · rfl
    · exact State.setChan_rst _ _ _
  · exact State.measProc_rst c m raw s

theorem State.evAdc_rst (tag : MuxCode) (raw : BitVec 16) (s : State) : (s.evAdc tag raw).rst = s.rst := by
  unfold State.evAdc
  split
  · rfl
  · split
    · rfl
    · have h := State.chProc_rst (chanOf tag) (muxStrip tag) raw { s with adcBusy := false }
      split <;> rename_i x hx <;> rw [hx] at h
      · exact h
      · rw [← show x.rst = s.rst from h]
        unfold State.adcAdvance
        simp only
        split <;> rfl

/-- R60: no operation moves the input pin `rst`. -/
theorem exec_rst (i : Instr) {s t : State} (h : exec i s = .next t) : t.rst = s.rst := by
  have hc : ∀ f : State → State, (f s).rst = s.rst → (s.hostCommand f).rst = s.rst := fun f hf =>
    State.hostCommand_induct (P := fun x => x.rst = s.rst) (fun _ => rfl) (fun _ => hf)
  cases i with
  | evZc =>
    injection h with h; subst h
    unfold State.evZc State.zcArm
    repeat' split
    all_goals rfl
  | evTmr =>
    injection h with h; subst h
    unfold State.evTmr
    simp only
    repeat' split
    all_goals rfl
  | evAdc tag raw =>
    change execEvAdc tag raw s = .next t at h
    unfold execEvAdc at h
    split at h
    · cases h
    · injection h with h; subst h; exact State.evAdc_rst tag raw s
  | evOc =>
    injection h with h; subst h
    unfold State.evOc
    split <;> rfl
  | regRd a =>
    change execRegRd a s = .next t at h
    unfold execRegRd at h
    repeat' split at h
    all_goals (injection h with h; subst h; rfl)
  | regWr a v =>
    injection h with h; subst h
    refine hc _ ?_
    split
    · rfl
    · rename_i r _
      repeat' split
      all_goals first | rfl | (cases r <;> first | rfl | exact State.setChan_rst _ _ _)
  | measProc c m raw => injection h with h; subst h; exact State.measProc_rst c m raw s
  | chProc c m raw => injection h with h; subst h; exact State.chProc_rst c m raw s
  | _ =>
    injection h with h; subst h
    first
    | rfl
    | exact State.setChan_rst _ _ _
    | (refine hc _ ?_; (try simp only); repeat' split) <;> first | rfl | exact State.setChan_rst _ _ _

/-- R60: a step does not move the input pin `rst`. -/
theorem step_rst {s t : State} (h : step s = .next t) : t.rst = s.rst := by
  obtain ⟨-, h | ⟨st, -, ⟨i, -, -, h⟩ | h⟩⟩ := step_cases h
  · rw [h]; rfl
  · exact (exec_rst i h).trans rfl
  · rw [h]; rfl

/-- R80: the values the outside world sees during a step end with the pins after it. -/
theorem pinHistory_getLast? {s t : State} (h : step s = .next t) :
    s.pinHistory.getLast? = some t.outputPins := by
  have ht := step_rst h
  unfold State.pinHistory
  cases hr : s.rst with
  | false =>
    rw [hr] at ht
    rw [if_neg (by simp), scanl_getLast?, ← step_pins h]
    unfold State.outputPins
    rw [ht]
    rfl
  | true =>
    rw [if_pos rfl]
    have hn : s.nextStimulus = some .rst := by unfold State.nextStimulus; rw [hr]; rfl
    unfold step at h
    split at h
    · rw [hn] at h
      injection h with h
      subst h
      unfold State.outputPins
      rw [hr, show (s.beginStep .rst).rst = true from hr]
      rfl
    · cases h

end Sys2Proof.Machine
end

