-- ==== Sys2Proof/Laws/Registers.lean ====
section
/-! SUPPORT. What the address map of 10_state.md R51 to R53 gives for the writable registers, and a written
field read back. -/

namespace Sys2Proof.Machine

/-- R51: `IRQ_CLEAR` is at address 5 alone. -/
theorem regAt_irqClear {cfg : Config} {a : BitVec 16} (h : regAt cfg a = some .irqClear) : a = 5 := by
  apply BitVec.eq_of_toNat_eq
  unfold regAt at h
  simp only at h
  split at h
  · unfold globalRegAt at h
    split at h <;> try cases h
    · assumption
    · split at h <;> cases h
  · split at h
    · cases hx : chRegAt (a.toNat - 0x100) <;> rw [hx] at h <;> cases h
    · split at h
      · cases hx : chRegAt (a.toNat - 0x200) <;> rw [hx] at h <;> cases h
      · split at h
        · cases h
        · split at h
          · cases hx : tipRegAt ((a.toNat - 0x400) % 0x10) <;> rw [hx] at h <;> cases h
          · cases h

/-- R53: a register of a tip record is one of a slot the pool has. -/
theorem regAt_tip {cfg : Config} {a : BitVec 16} {n : Nat} {f : TipReg}
    (h : regAt cfg a = some (.tip n f)) : n < cfg.numTipSettings := by
  unfold regAt at h
  simp only at h
  split at h
  · unfold globalRegAt at h
    split at h <;> try cases h
    split at h <;> cases h
  · split at h
    · cases hx : chRegAt (a.toNat - 0x100) <;> rw [hx] at h <;> cases h
    · split at h
      · cases hx : chRegAt (a.toNat - 0x200) <;> rw [hx] at h <;> cases h
      · split at h
        · cases h
        · split at h
          · rename_i hn
            cases hx : tipRegAt ((a.toNat - 0x400) % 0x10) <;> rw [hx] at h <;> cases h
            exact hn
          · cases h

/-- A value that fits its field is read back as it was written (R50). -/
theorem zext_setWidth {n : Nat} (v : RegWord) (h : v.toNat < 2 ^ n) : zext (v.setWidth n) = v := by
  apply BitVec.eq_of_toNat_eq
  unfold zext
  simp only [BitVec.toNat_setWidth]
  rw [Nat.mod_eq_of_lt h, Nat.mod_eq_of_lt v.isLt]

end Sys2Proof.Machine
end

