-- ==== Sys2Proof/Machine/Assembler.lean ====
section
/-! DEFINITION. The text form of test scripts (30_encoding.md R110, R111): one stimulus per line, and the
pseudo-instructions. It belongs to the test bench, not to the machine. -/

namespace Sys2Proof.Machine

/-- What a line is. -/
inductive AsmLine where
  | blank
  | word (w : StimWord)
  | error
deriving DecidableEq, Repr

/-- A digit of a base up to 16, hexadecimal letters in either case (DESIGN CHOICE, log 23). -/
def digitVal (base : Nat) (c : Char) : Option Nat :=
  let n := c.toNat
  let v :=
    if 48 ≤ n ∧ n ≤ 57 then some (n - 48)
    else if 97 ≤ n ∧ n ≤ 102 then some (n - 87)
    else if 65 ≤ n ∧ n ≤ 70 then some (n - 55)
    else none
  v.bind fun d => if d < base then some d else none

/-- A number from its digits. -/
def parseDigits (base : Nat) (cs : List Char) : Option Nat :=
  if cs.isEmpty then none
  else cs.foldl (fun acc c => acc.bind fun n => (digitVal base c).map fun d => n * base + d) (some 0)

/-- "State codes and iron codes may be written by name" (R110, R33, R34). -/
def namedCodes : List (String × Nat) :=
  [ ("off", 0), ("noTool", 1), ("active", 2), ("setback", 3), ("overload", 4), ("noTip", 5),
    ("fixedPower", 6), ("Unknown", 0), ("T12", 1), ("JBC", 2), ("AttenTweezers", 3), ("Weller", 4),
    ("Dummy", 5) ]

/-- An operand: decimal, `0x` hexadecimal, or a name (R110). DESIGN CHOICE, log 24: R110 does not say where a name
may stand, and here any of the thirteen stands for its code in every operand position. -/
def parseOperand (cs : List Char) : Option Nat :=
  match cs with
  | '0' :: 'x' :: ds => parseDigits 16 ds
  | _ =>
    match parseDigits 10 cs with
    | some n => some n
    | none => (namedCodes.find? fun e => e.1.toList == cs).map fun e => e.2

/-- A blank character: space or tab (DESIGN CHOICE, log 23). -/
def isBlank (c : Char) : Bool := c == ' ' || c == '\t'

/-- A text without blanks at its ends. -/
def trim (cs : List Char) : List Char := ((cs.dropWhile isBlank).reverse.dropWhile isBlank).reverse

/-- A text cut at its commas. -/
def splitCommas : List Char → List (List Char)
  | [] => [[]]
  | c :: cs =>
    if c = ',' then [] :: splitCommas cs
    else
      match splitCommas cs with
      | [] => [[c]]
      | h :: t => (c :: h) :: t

/-- The operands of a line. -/
def parseOperands (cs : List Char) : Option (List Nat) :=
  if (trim cs).isEmpty then some [] else (splitCommas cs).mapM fun x => parseOperand (trim x)

/-- The fields of a format from its operands, "in the order channel, index, aux, arg, omitting the fields
the format does not use" (R110); a value its field cannot hold is an error (DESIGN CHOICE, log 23). -/
def operandFields (f : Format) (l : List Nat) : Option Fields :=
  let ok (b : Bool) (x : Fields) : Option Fields := if b then some x else none
  match f, l with
  | .e0, [] => some { }
  | .h0, [] => some { }
  | .ea, [t, r] => ok (t < 2 ^ 8 && r < 2 ^ 16) { aux := BitVec.ofNat 16 t, arg := BitVec.ofNat 32 r }
  | .hc, [c] => ok (c < 2) { ch := BitVec.ofNat 4 c }
  | .hci, [c, i] => ok (c < 2 && i < 16) { ch := BitVec.ofNat 4 c, idx := BitVec.ofNat 4 i }
  | .hca, [c, a] => ok (c < 2 && a < 2 ^ 32) { ch := BitVec.ofNat 4 c, arg := BitVec.ofNat 32 a }
  | .hcixa, [c, i, x, a] =>
    ok (c < 2 && i < 16 && x < 2 ^ 16 && a < 2 ^ 32)
      { ch := BitVec.ofNat 4 c, idx := BitVec.ofNat 4 i, aux := BitVec.ofNat 16 x,
        arg := BitVec.ofNat 32 a }
  | .hx, [x] => ok (x < 2 ^ 16) { aux := BitVec.ofNat 16 x }
  | .hxa, [x, a] => ok (x < 2 ^ 16 && a < 2 ^ 32) { aux := BitVec.ofNat 16 x, arg := BitVec.ofNat 32 a }
  | _, _ => none

/-- The mnemonic as written and the operands, with the one-line pseudo-instructions of R111 expanded:
`CH.ON c`, `CH.OFF c`, `REG.CLR bits`. -/
def expandPseudo (m : List Char) (l : List Nat) : List Char × List Nat :=
  if m = "CH.ON".toList then ("CH.SETSTATE".toList, l ++ [2])
  else if m = "CH.OFF".toList then ("CH.SETSTATE".toList, l ++ [0])
  else if m = "REG.CLR".toList then ("REG.WR".toList, 0x0005 :: l)
  else (m, l)

/-- One line of text (R110). Internal mnemonics are not accepted. Letters are taken as printed, and a text the
rules do not show is an error (DESIGN CHOICE, log 23). -/
def assembleLine (line : List Char) : AsmLine :=
  let text := trim (line.takeWhile fun c => c != '#')
  if text.isEmpty then .blank
  else
    let m := text.takeWhile fun c => !isBlank c
    match parseOperands (text.dropWhile fun c => !isBlank c) with
    | none => .error
    | some l =>
      let e := expandPseudo m l
      match (eventRows ++ hostRows).find? fun r => r.mnemonic.toList == e.1 with
      | none => .error
      | some r =>
        match operandFields r.format e.2 with
        | none => .error
        | some f => .word (assembleWord r.op f)

/-- `HALFCYCLE r0, r1, ...` (R111): EV.ZC, EV.TMR, then one EV.ADC per raw value with the tag the queue
holds after the EV.TMR step; the number of values must equal `q_len`. -/
def halfcycle (s : State) (raws : List (BitVec 16)) : Option (List Instr) :=
  let t := s.evZc.evTmr
  if raws.length = t.qLen.toNat then
    some (.evZc :: .evTmr :: (raws.zipIdx.map fun x => .evAdc (t.qAt x.2) x.1))
  else none

/-- `REPEAT n { lines }` (R111): the lines written out `n` times. -/
def repeatLines {α : Type} (n : Nat) (lines : List α) : List α := (List.replicate n lines).flatten

end Sys2Proof.Machine
end

