-- ==== Sys2Proof/Tests/Slice0.lean ====
section
/-! SUPPORT. Tests: an ill-formed term for each check of WellFormed, a word written out from R92 to R95 for
every row of the opcode table, small tests of the operations with the values of 95_test_vectors.md (named by
their V and P numbers), and a witness for the hypotheses of every statement. -/

namespace Sys2Proof.Tests

open Sys2Proof.Machine

/-! Small states -/

/-- A T12 channel heating on slot 0, its gains the default ones. -/
def hot : Channel :=
  { Channel.reset Config.default with
    state := .active, iron := .t12, tip := 0, selectedTip := 0, ctlEn := true, voltSel := 1, led := true
    presentA := true, k := ⟨2000, 500, 2, 50000⟩, presets := ⟨3500, 3000, 2500⟩, userTemp := 3500,
    setbackTime := 300, safetyOffTime := 1200 }

/-- The reset state with control enabled, slot 0 a T12 tip (name 0) and channel 0 as given. -/
def withChan (ch : Channel) : State :=
  { State.reset with
    ctlEnabled := true, ch0 := ch, tips := State.reset.tips.set 0 (defaultRecord Config.default 0) }

/-- Channel 0 heating. -/
def heating : State := withChan hot

/-- Channel 0 heating, its two conversions queued, the first in flight (P1 step 31). -/
def converting : State :=
  { heating with
    q := queueOf [0x04, 0x0A], qLen := 2, qIdx := 0, adcBusy := true, adcMux := 0x04 }

/-- A halted machine (P4 step 3). -/
def halted : State := heating.raiseFatal .adcDesync

/-- A state whose parameters are outside their ranges. -/
def misconfigured : State := { State.reset with cfg := { Config.default with avgLen := 0 } }

/-- The value the operation hands over. -/
def retOf (i : Instr) (s : State) : OpResult :=
  match exec i s with
  | .next t => t.ret
  | .fault _ => .none
  | .refused _ => .none

/-! WellFormed refuses an ill-formed term of each check -/

theorem test_wellFormed_refuses :
    WellFormed { Config.default with adcBits := 12 } (.evAdc 0x04 4096) = false
      ∧ WellFormed Config.default (.ctlLoad .ch0 8) = false
      ∧ WellFormed Config.default (.muxTag 0x05 .ch0) = false
      ∧ WellFormed Config.default (.muxTag 0x20 .ch0) = false
      ∧ WellFormed Config.default (.muxStrip 0x40) = false
      ∧ WellFormed Config.default (.measProc .ch0 0x05 0) = false
      ∧ WellFormed { Config.default with adcBits := 12 } (.measProc .ch0 0x04 4096) = false
      ∧ WellFormed { Config.default with adcBits := 12 } (.chIdent .ch0 4096) = false
      ∧ WellFormed Config.default (.chSetiron .ch0 .dummy) = false
      ∧ WellFormed Config.default (.chProc .ch0 0x05 0) = false
      ∧ WellFormed { Config.default with adcBits := 12 } (.chProc .ch0 0x04 4096) = false := by decide

theorem test_wellFormed_accepts :
    WellFormed { Config.default with adcBits := 12 } (.evAdc 0x04 4095) = true
      ∧ WellFormed Config.default (.ctlLoad .ch0 7) = true
      ∧ WellFormed Config.default (.muxTag 0x1E .ch1) = true
      ∧ WellFormed Config.default (.muxStrip 0x1F) = true
      ∧ WellFormed Config.default (.chSetiron .ch0 .weller) = true
      ∧ WellFormed Config.default (.measProc .ch1 0x0A 65535) = true := by decide

/-! Decoding, one word for every row (R92 to R95; V-E1) -/

theorem test_decode_events :
    decode 0x0100000000000000 = .ok .evRst
      ∧ decode 0x0200000000000000 = .ok .evZc
      ∧ decode 0x0300000000000000 = .ok .evTmr
      ∧ decode 0x0400000400001770 = .ok (.evAdc 0x04 6000)
      ∧ decode 0x040000030000FFFF = .ok (.evAdc 0x03 65535)
      ∧ decode 0x0500000000000000 = .ok .evOc := ⟨rfl, rfl, rfl, rfl, rfl, rfl⟩

theorem test_decode_scheduler :
    decode 0x1000000000000000 = .ok .ctlEnable
      ∧ decode 0x1100000000000000 = .ok .ctlDisable
      ∧ decode 0x1200000000000000 = .ok .ctlToggle
      ∧ decode 0x1300000000000000 = .ok .ctlChiptemp := ⟨rfl, rfl, rfl, rfl⟩

theorem test_decode_channel :
    decode 0x2012000000000000 = .ok (.chSetstate .ch1 2)
      ∧ decode 0x2100000000000DAC = .ok (.chSettemp .ch0 3500)
      ∧ decode 0x2200000000000000 = .ok (.chNextpreset .ch0)
      ∧ decode 0x2310000000000000 = .ok (.chChangetip .ch1 0)
      ∧ decode 0x2400000000000000 = .ok (.chInteract .ch0)
      ∧ decode 0x2500000000000019 = .ok (.chFixedpwr .ch0 25)
      ∧ decode 0x2610000000000000 = .ok (.chGetstate .ch1)
      ∧ decode 0x2700000000000000 = .ok (.chGetcur .ch0)
      ∧ decode 0x2800000000000000 = .ok (.chGettgt .ch0)
      ∧ decode 0x2910000000000000 = .ok (.chGetpwr .ch1)
      ∧ decode 0x2A00000000000000 = .ok (.chIsmod .ch0) :=
  ⟨rfl, rfl, rfl, rfl, rfl, rfl, rfl, rfl, rfl, rfl, rfl⟩

theorem test_decode_calibration :
    decode 0x3001000000000000 = .ok (.calSave .ch0 1)
      ∧ decode 0x31020FA000002328 = .ok (.calSet .ch0 2 4000 9000)
      ∧ decode 0x3202000000000000 = .ok (.calGett .ch0 2)
      ∧ decode 0x3312000000000000 = .ok (.calGetm .ch1 2)
      ∧ decode 0x3410000000000000 = .ok (.calInst .ch1) := ⟨rfl, rfl, rfl, rfl, rfl⟩

theorem test_decode_tips_registers :
    decode 0x4000000600000000 = .ok (.tipAlloc 6)
      ∧ decode 0x4100000300000000 = .ok (.tipFree 3)
      ∧ decode 0x4200000C00000000 = .ok (.tipFind 12)
      ∧ decode 0x5000010000000000 = .ok (.regRd 0x0100)
      ∧ decode 0x510001140000012C = .ok (.regWr 0x0114 300) := ⟨rfl, rfl, rfl, rfl, rfl⟩

/-- INT words carry their opcode alone (R92): the decoder reads the operation, its operands are free. -/
theorem test_decode_internal_first :
    (∃ c d, decode 0x8000000000000000 = .ok (.dccSet c d))
      ∧ (∃ c, decode 0x8100000000000000 = .ok (.dccAdv c))
      ∧ (∃ c, decode 0x8200000000000000 = .ok (.dccIson c))
      ∧ (∃ c n, decode 0x8800000000000000 = .ok (.ctlLoad c n))
      ∧ (∃ c b, decode 0x8900000000000000 = .ok (.ctlEn c b))
      ∧ (∃ c x y, decode 0x8A00000000000000 = .ok (.pidStep c x y))
      ∧ (∃ c x y, decode 0x8B00000000000000 = .ok (.tbhStep c x y))
      ∧ (∃ a b c d e, decode 0x9000000000000000 = .ok (.muxMake a b c d e))
      ∧ (∃ m c, decode 0x9100000000000000 = .ok (.muxTag m c))
      ∧ (∃ m, decode 0x9200000000000000 = .ok (.muxStrip m))
      ∧ (∃ c, decode 0x9800000000000000 = .ok (.measSeq c))
      ∧ (∃ c m r, decode 0x9900000000000000 = .ok (.measProc c m r))
      ∧ (∃ c, decode 0x9A00000000000000 = .ok (.measTemp c))
      ∧ (∃ c, decode 0x9B00000000000000 = .ok (.measItemp c)) :=
  ⟨⟨_, _, rfl⟩, ⟨_, rfl⟩, ⟨_, rfl⟩, ⟨_, _, rfl⟩, ⟨_, _, rfl⟩, ⟨_, _, _, rfl⟩, ⟨_, _, _, rfl⟩,
    ⟨_, _, _, _, _, rfl⟩, ⟨_, _, rfl⟩, ⟨_, rfl⟩, ⟨_, rfl⟩, ⟨_, _, _, rfl⟩, ⟨_, rfl⟩, ⟨_, rfl⟩⟩

theorem test_decode_internal_second :
    (∃ c t, decode 0x9C00000000000000 = .ok (.measUpd c t))
      ∧ (∃ c, decode 0x9D00000000000000 = .ok (.measDrive c))
      ∧ (∃ c r, decode 0xA000000000000000 = .ok (.chIdent c r))
      ∧ (∃ c t, decode 0xA100000000000000 = .ok (.chSetiron c t))
      ∧ (∃ c, decode 0xA200000000000000 = .ok (.chTipsel c))
      ∧ (∃ c m, decode 0xA300000000000000 = .ok (.chIdle c m))
      ∧ (∃ c, decode 0xA400000000000000 = .ok (.chOverload c))
      ∧ (∃ c, decode 0xA500000000000000 = .ok (.chUpddrive c))
      ∧ (∃ c m r, decode 0xA600000000000000 = .ok (.chProc c m r))
      ∧ (∃ c t, decode 0xA700000000000000 = .ok (.chSetst c t))
      ∧ decode 0xB000000000000000 = .ok .seqBuild
      ∧ decode 0xB100000000000000 = .ok .seqNext
      ∧ decode 0xB200000000000000 = .ok .ctrlUpdate
      ∧ (∃ e, decode 0xBF00000000000000 = .ok (.trapFatal e)) :=
  ⟨⟨_, _, rfl⟩, ⟨_, rfl⟩, ⟨_, _, rfl⟩, ⟨_, _, rfl⟩, ⟨_, rfl⟩, ⟨_, _, rfl⟩, ⟨_, rfl⟩, ⟨_, rfl⟩,
    ⟨_, _, _, rfl⟩, ⟨_, _, rfl⟩, rfl, rfl, rfl, ⟨_, rfl⟩⟩

/-- V-E2 and R97: must-be-zero bits and reserved opcodes. -/
theorem test_decode_rejects :
    decode 0x0000000000000000 = .error (.reservedOpcode 0x00)
      ∧ decode 0x2020000000000000 = .error (.mustBeZero "CH.SETSTATE")
      ∧ decode 0x1000000000000001 = .error (.mustBeZero "CTL.ENABLE")
      ∧ decode 0x2100000100000DAC = .error (.mustBeZero "CH.SETTEMP")
      ∧ decode 0x0400000400010000 = .error (.mustBeZero "EV.ADC")
      ∧ decode 0x5000000000000001 = .error (.mustBeZero "REG.RD")
      ∧ decode 0x5110000000000000 = .error (.mustBeZero "REG.WR")
      ∧ decode 0xFF00000000000000 = .error (.reservedOpcode 0xFF) :=
  ⟨rfl, rfl, rfl, rfl, rfl, rfl, rfl, rfl⟩

/-- No two rows of R94 share an opcode, and every row's pattern lies inside its mask. -/
theorem test_opcodeTable_rows :
    opcodeTable.length = 58 ∧ (opcodeTable.map Row.op).Pairwise (· ≠ ·)
      ∧ ∀ r ∈ opcodeTable, r.pattern &&& r.format.mask = r.pattern := by decide

/-- V-E1, R110, R111: lines of text and their words. -/
theorem test_assemble_lines :
    assembleLine "EV.ADC 0x0A, 250".toList = .word 0x0400000A000000FA
      ∧ assembleLine "  CH.SETSTATE 1, active  # on".toList = .word 0x2012000000000000
      ∧ assembleLine "REG.CLR 0x0400".toList = .word 0x5100000500000400
      ∧ assembleLine "CAL.SET 0, 2, 4000, 9000".toList = .word 0x31020FA000002328
      ∧ assembleLine "DCC.ADV 0".toList = .error
      ∧ assembleLine "CH.SETSTATE 2, off".toList = .error
      ∧ assembleLine "# a comment".toList = .blank := by decide

/-! Events and the scheduler -/

theorem test_evRst : exec .evRst converting = .next State.reset := rfl

/-- V70. -/
theorem test_evZc :
    let s := { heating with
      refreshCnt := 9, reportCnt := 3, ch0 := { hot with drive := 0b01 } }
    let t := after .evZc s
    t.ch0.drive = 0 ∧ t.refreshCnt = 0 ∧ t.refreshReq = true ∧ t.reportCnt = 4 ∧ t.timerArmed = true
      ∧ t.tmrArm = true ∧ (after .evZc { s with ctlEnabled := false }).timerArmed = false := by decide

/-- P6 step 4: a zero crossing while a conversion is in flight is an overrun. -/
theorem test_evZc_overrun :
    (after .evZc converting).overrun = true ∧ (after .evZc converting).timerArmed = false := by decide

/-- P1 step 31, V72. -/
theorem test_evTmr :
    let t := after .evTmr { heating with timerArmed := true }
    t.q = #v[0x04, 0x0A, 0xFF, 0xFF, 0xFF, 0xFF, 0xFF, 0xFF] ∧ t.qLen = 2 ∧ t.adcMux = 0x04
      ∧ t.adcBusy = true ∧ t.adcStart = true ∧ t.timerArmed = false ∧ t.ch1.identCnt = 1
      ∧ after .evTmr heating = heating := by decide

/-- P1 steps 32 and 33: the first sample only advances, the second one ends in one controller step. -/
theorem test_evAdc_sequence :
    let t := after (.evAdc 0x04 6000) converting
    let u := after (.evAdc 0x0A 250) t
    t.qIdx = 1 ∧ t.adcMux = 0x0A ∧ t.ch0.avgA.avg = 6000 ∧ t.ch0.curOut = 0 ∧ t.adcBusy = true
      ∧ u.ch0.curTemp = 3125 ∧ u.ch0.iAcc = 937500000 ∧ u.ch0.curOut = 75093 ∧ u.ch0.duty = 75
      ∧ u.ch0.acc = 75 ∧ u.ch0.on = false ∧ u.adcBusy = false ∧ u.qIdx = 0 := by decide

/-- P4 step 3 and V72: a wrong tag, and no conversion in flight. -/
theorem test_evAdc_desync :
    let t := after (.evAdc 0x0A 250) converting
    t.fatalCode = some .adcDesync ∧ t.adcBusy = true ∧ t.qIdx = 0
      ∧ (after (.evAdc 0x04 0) heating).fatalCode = some .adcDesync := by decide

/-- P3 step 4, V62. -/
theorem test_evOc :
    let t := after .evOc { heating with ch0 := { hot with state := .setback, duty := 12, on := true, drive := 1 } }
    t.ch0.state = .overload ∧ t.ch0.ctlEn = false ∧ t.ch0.duty = 0 ∧ t.ch0.drive = 0 ∧ t.ch0.voltSel = 1
      ∧ t.ch0.led = true ∧ t.ch1.state = .overload ∧ t.refreshReq = true := by decide

/-- P4 steps 4 to 7: a halted machine. -/
theorem test_halted :
    after .evZc halted = halted ∧ after .evOc halted = halted
      ∧ (after (.chSettemp .ch0 3000) halted).cmdCode = some .halted
      ∧ (after (.chSettemp .ch0 3000) halted).ch0.userTemp = 3500
      ∧ (after (.regRd 0x0000) halted).respOk = true := by decide

theorem test_ctl_commands :
    (after .ctlEnable State.reset).ctlEnabled = true ∧ (after .ctlToggle State.reset).resp = 1
      ∧ (after .ctlToggle heating).resp = 0 ∧ (after .ctlDisable heating).ch0.state = .off
      ∧ (after .ctlDisable heating).ch1.state = .noTool := by decide

theorem test_ctlChiptemp :
    let t := after .ctlChiptemp { State.reset with chipTempIn := 0xFFFB }
    t.chipTemp = 0xFFFB ∧ t.resp = 0xFFFFFFFB := by decide

/-- V71. -/
theorem test_seqBuild :
    let tweezers : Channel := { hot with iron := .attenTweezers }
    let s := { heating with ch1 := { State.reset.ch1 with state := .noTool, identCnt := 15 } }
    (after .seqBuild s).q = #v[0x04, 0x0A, 0x03, 0xFF, 0xFF, 0xFF, 0xFF, 0xFF]
      ∧ (after .seqBuild s).qLen = 3 ∧ (after .seqBuild s).ch1.identCnt = 0
      ∧ (after .seqBuild { s with ch0 := tweezers, ch1 := tweezers }).q
        = #v[0x04, 0x06, 0x0A, 0x05, 0x07, 0x0B, 0xFF, 0xFF] := by decide

theorem test_seqNext :
    let t := after .seqNext { converting with qIdx := 1 }
    t.adcMux = 0x0A ∧ t.adcBusy = true ∧ t.adcStart = true := by decide

/-- P5 step 1: a heating channel whose tip is gone. -/
theorem test_ctrlUpdate_noTip :
    let t := after .ctrlUpdate { heating with ch0 := { hot with presentA := false } }
    t.ch0.state = .noTip ∧ t.ch0.ctlEn = false ∧ t.ch0.led = false ∧ t.ch0.idleMs = 10 := by decide

theorem test_trapFatal :
    let t := after (.trapFatal .measMux) { heating with ch0 := { hot with drive := 1 } }
    t.fatal = true ∧ t.fatalCode = some .measMux ∧ t.ch0.drive = 0 ∧ t.ch0.duty = hot.duty := by decide

/-! Channel commands -/

/-- P1 step 29, V-E2. -/
theorem test_chSetstate :
    let t := after (.chSetstate .ch0 2) (withChan { hot with state := .off, ctlEn := false, curOut := 75656 })
    t.ch0.state = .active ∧ t.ch0.iAcc = 756560000000 ∧ t.ch0.ctlEn = true ∧ t.resp = 0
      ∧ (after (.chSetstate .ch0 3) heating).cmdCode = some .range
      ∧ (after (.chSetstate .ch1 2) heating).cmdCode = some .noIron := by decide

/-- P3 steps 6 to 8. -/
theorem test_chSetstate_overload :
    (after (.chSetstate .ch0 2) (withChan { hot with state := .overload, ctlEn := false })).cmdCode = some .state
      ∧ (after (.chSetstate .ch0 0) (withChan { hot with state := .overload, ctlEn := false })).ch0.led = false
      ∧ (after (.chSetstate .ch1 0) { heating with ch1 := State.reset.ch1.setOverload }).ch1.state = .noTool := by
  decide

theorem test_chSettemp :
    (after (.chSettemp .ch0 3400) heating).ch0.userTemp = 3400
      ∧ (after (.chSettemp .ch0 32767) heating).respOk = true
      ∧ (after (.chSettemp .ch1 40000) heating).cmdCode = some .range := by decide

/-- V63. -/
theorem test_chNextpreset :
    let t := after (.chNextpreset .ch0) heating
    let u := after (.chNextpreset .ch0) (after (.chNextpreset .ch0) t)
    t.ch0.preset = .i1 ∧ t.ch0.userTemp = 3000 ∧ t.resp = 1 ∧ u.ch0.preset = .i0 ∧ u.resp = 0 := by decide

theorem test_chChangetip :
    let s := { heating with tips := heating.tips.set 2 (defaultRecord Config.default 1) }
    let w := { heating with tips := heating.tips.set 2 (defaultRecord Config.default 6) }
    (after (.chChangetip .ch0 2) s).ch0.tip = 2 ∧ (after (.chChangetip .ch0 2) s).ch0.selectedTip = 2
      ∧ (after (.chChangetip .ch0 2) w).fatalCode = some .tipMismatch
      ∧ (after (.chChangetip .ch0 2) w).cmdCode = some .halted
      ∧ (after (.chChangetip .ch0 8) s).cmdCode = some .slot
      ∧ (after (.chChangetip .ch1 2) s).cmdCode = some .noIron := by decide

theorem test_chInteract :
    let t := after (.chInteract .ch0) (withChan { hot with state := .setback, idleMs := 5000, iAcc := 7 })
    t.ch0.state = .active ∧ t.ch0.idleMs = 0 ∧ t.ch0.iAcc = 7 := by decide

/-- P6 step 1. -/
theorem test_chFixedpwr :
    let t := after (.chFixedpwr .ch0 25) (withChan { hot with duty := 76, acc := 1, curOut := 75656 })
    t.ch0.state = .fixedPower ∧ t.ch0.duty = 25 ∧ t.ch0.acc = 1 ∧ t.ch0.ctlEn = false ∧ t.ch0.curOut = 75656
      ∧ (after (.chFixedpwr .ch0 101) heating).cmdCode = some .range := by decide

theorem test_channel_queries :
    let s := withChan { hot with state := .setback, curTemp := 0xFFFF, setbackTemp := 2000 }
    (after (.chGetstate .ch0) s).resp = 3 ∧ (after (.chGetcur .ch0) s).resp = 0xFFFFFFFF
      ∧ (after (.chGettgt .ch0) s).resp = 2000 ∧ (after (.chGetpwr .ch0) s).resp = 0
      ∧ (after (.chIsmod .ch0) s).resp = 0
      ∧ (after (.chIsmod .ch0) (after (.chSettemp .ch0 3400) s)).resp = 1 := by decide

/-! Calibration, tips and registers -/

/-- One sample in each of the slots A and C. -/
def sampled (a c : BitVec 32) : Channel :=
  { hot with avgA := hot.avgA.push a, avgC := hot.avgC.push c }

/-- V45. -/
theorem test_calSave :
    let t := after (.calSave .ch0 0) (withChan (sampled 5012 231))
    t.resp = 1 ∧ (t.tip 0).calM = ⟨5012, 7000, 9000⟩ ∧ (t.tip 0).calT.x0 = 2500
      ∧ (after (.calSave .ch0 0) (withChan (sampled 499 0))).resp = 0
      ∧ (after (.calSave .ch0 0) (withChan (sampled 12000 600))).resp = 1
      ∧ (after (.calSave .ch0 0) (withChan (sampled 12000 601))).resp = 0
      ∧ (after (.calSave .ch0 3) heating).cmdCode = some .range
      ∧ (after (.calSave .ch1 0) heating).cmdCode = some .noTip := by decide

/-- V47. -/
theorem test_cal_roundTrip :
    let t := after (.calSet .ch0 2 4000 9001) heating
    (after (.calGett .ch0 2) t).resp = 4000 ∧ (after (.calGetm .ch0 2) t).resp = 9001
      ∧ (after (.calSet .ch0 1 0x8000 0) heating).cmdCode = some .range
      ∧ (after (.calSet .ch0 1 0 16777216) heating).cmdCode = some .range := by decide

/-- V44. -/
theorem test_calInst :
    (after (.calInst .ch0) (withChan { hot with rawA := 7000, rawC := 260 })).resp = 3510 := by decide

/-- V80. -/
theorem test_tip_commands :
    let s := after (.tipAlloc 6) State.reset
    let t := after (.tipAlloc 1) s
    s.resp = 0 ∧ t.resp = 1 ∧ (after (.tipAlloc 6) t).resp = 0 ∧ (after (.tipFind 6) t).resp = 0
      ∧ (after (.tipFind 12) t).resp = 0xFFFF ∧ ((after (.tipFree 1) t).tip 1).name = 0xFFFF
      ∧ (after (.tipFree 1) (after (.tipFree 1) t)).cmdCode = some .slot
      ∧ (after (.tipFree 0) heating).cmdCode = some .inUse
      ∧ (after (.tipAlloc 16) t).cmdCode = some .range := by decide

/-- V82, V81, V-E2. -/
theorem test_regRd :
    (after (.regRd 0x0000) { converting with overrun := true, refreshReq := true, logReq := true }).resp = 0x3A1
      ∧ (after (.regRd 0x0100) (withChan { hot with drive := 1, on := true })).resp = 0x00019712
      ∧ (after (.regRd 0x0001) converting).resp = 0x00000200
      ∧ (after (.regRd 0x0005) heating).cmdCode = some .addr
      ∧ (after (.regRd 0x0300) heating).cmdCode = some .addr
      ∧ (after (.regRd 0x0408) heating).resp = 2000 := by decide

theorem test_regWr :
    (after (.regWr 0x0114 300) heating).ch0.setbackTime = 300
      ∧ (after (.regWr 0x0100 1) heating).cmdCode = some .ro
      ∧ (after (.regWr 0x0110 40000) heating).cmdCode = some .range
      ∧ (after (.regWr 0x0005 1) heating).cmdCode = some .range
      ∧ (after (.regWr 0x0400 1) heating).cmdCode = some .inUse
      ∧ (after (.regWr 0x0005 0x0400) (heating.reject .state)).cmdErr = false := by decide

/-! The duty-cycle counter and the controllers -/

/-- V9. -/
theorem test_dccSet :
    (after (.dccSet .ch0 137) heating).ch0.duty = 100 ∧ (after (.dccSet .ch0 0xFFFFFFFB) heating).ch0.duty = 0
      ∧ (after (.dccSet .ch0 30) heating).ch0.duty = 30 ∧ (after (.dccSet .ch1 30) heating).ch1.duty = 0 := by
  decide

/-- V11; and DCC.ISON hands the decision over. -/
theorem test_dccAdv :
    let t := after (.dccAdv .ch0) (withChan { hot with acc := 70, duty := 30 })
    let u := after (.dccAdv .ch0) (withChan { hot with acc := 69, duty := 30 })
    t.ch0.on = true ∧ t.ch0.acc = 0 ∧ u.ch0.on = false ∧ u.ch0.acc = 99
      ∧ retOf (.dccIson .ch0) t = .bit true ∧ retOf (.dccIson .ch0) u = .bit false := by decide

theorem test_ctlLoad :
    (after (.ctlLoad .ch1 0) heating).ch1.k = ⟨2000, 500, 2, 50000⟩ := by decide

/-- V27. -/
theorem test_ctlEn :
    let s := withChan { hot with ctlEn := false, curOut := 42000, iAcc := 100000000000 }
    let t := after (.ctlEn .ch0 true) s
    t.ch0.iAcc = 420000000000 ∧ t.ch0.tbhPrev = 42000 ∧ after (.ctlEn .ch0 false) s = s
      ∧ retOf (.pidStep .ch0 3500 3490) t = .number 44005 := by decide

/-- V20, V21, V26. -/
theorem test_pidStep :
    let t := after (.pidStep .ch0 3500 3000) heating
    t.ch0.iAcc = 1250000000 ∧ t.ch0.curOut = 100000
      ∧ retOf (.pidStep .ch0 3500 3100) t = .number 78325
      ∧ retOf (.pidStep .ch0 3500 3300) (withChan { hot with ctlEn := false, curOut := 42000 })
        = .number 42000 := by decide

/-- V28, V29 steps 1 to 3: the two integral clamps. -/
theorem test_pidStep_clamps :
    let s := withChan { hot with k := ⟨1000, 1000000, 0, 1000⟩ }
    let t := after (.pidStep .ch0 4000 1000) (after (.pidStep .ch0 4000 1000) s)
    t.ch0.iAcc = 45000000000000 ∧ (after (.pidStep .ch0 4000 900) t).ch0.iAcc = 10000000000
      ∧ (after (.pidStep .ch0 0 5000) s).ch0.iAcc.toInt = -10000000000 := by decide

/-- V30 rows 1 and 2, and its `toward` case. -/
theorem test_tbhStep :
    let s := withChan { hot with k := ⟨100, 2000, 500, 0⟩, curOut := 40000, tbhPrev := 40000 }
    let t := after (.tbhStep .ch0 3500 3470) s
    retOf (.tbhStep .ch0 3500 3470) s = .number 40300 ∧ retOf (.tbhStep .ch0 3500 3520) t = .number 38800
      ∧ (after (.tbhStep .ch0 3500 3520) t).ch0.tbhPrev = 38800
      ∧ retOf (.tbhStep .ch0 3500 3100)
          (withChan { hot with
            k := ⟨100, 2000, 500, 0⟩, curOut := 30000, lastIn := 3000, haveIn := true, lastErr := 500
            haveErr := true }) = .number 14000 := by decide

/-! Mux codes and the measurement block -/

/-- V-E3. -/
theorem test_mux :
    retOf (.muxMake false true false true false) heating = .code 0x0A
      ∧ retOf (.muxMake true true true true true) heating = .code 0x1F
      ∧ retOf (.muxTag 0x0A .ch1) heating = .code 0x0B
      ∧ retOf (.muxStrip 0x0B) heating = .parts 0x0A .ch1 := by decide

theorem test_measSeq :
    retOf (.measSeq .ch0) heating = .codes [0x04, 0x0A] ∧ retOf (.measSeq .ch1) heating = .codes [] := by
  decide

/-- V42. -/
theorem test_measProc :
    (after (.measProc .ch0 0x04 58980) heating).ch0.presentA = true
      ∧ (after (.measProc .ch0 0x04 58981) heating).ch0.presentA = false
      ∧ (after (.measProc .ch0 0x0A 65535) heating).ch0.presentA = true
      ∧ (after (.measProc .ch0 0x14 6000) heating).ch0.avgA.avg = 6000
      ∧ (after (.measProc .ch0 0x06 6000) heating).fatalCode = some .measMux := by decide

/-- V43, V44. -/
theorem test_measTemp :
    retOf (.measTemp .ch0) (withChan (sampled 6000 250)) = .number 3125
      ∧ retOf (.measTemp .ch0) heating = .number 625 ∧ retOf (.measTemp .ch1) heating = .number 0
      ∧ retOf (.measItemp .ch0) (withChan { sampled 1 1 with rawA := 7000, rawC := 260 }) = .number 3510 := by
  decide

/-- P1 step 33. -/
theorem test_measUpd :
    let t := after (.measUpd .ch0 3500) (withChan (sampled 6000 250))
    t.ch0.curOut = 75093 ∧ t.ch0.duty = 75 ∧ t.ch0.lastIn = 3125 := by decide

/-- V46. -/
theorem test_measDrive :
    let s := withChan { hot with duty := 30, acc := 90 }
    retOf (.measDrive .ch0) s = .number 0b01 ∧ (after (.measDrive .ch0) s).ch0.acc = 20
      ∧ (after (.measDrive .ch0) s).ch0.pwr.avg = 50000
      ∧ retOf (.measDrive .ch0) (withChan { hot with duty := 30, acc := 90, iron := .attenTweezers })
        = .number 0b11
      ∧ retOf (.measDrive .ch0) heating = .number 0 := by decide

/-! The channel state machine -/

/-- V50: the ties go low. -/
theorem test_e12Round :
    e12Round 2000 = 1800 ∧ e12Round 2001 = 2200 ∧ e12Round 2450 = 2200 ∧ e12Round 2451 = 2700
      ∧ e12Round 0 = 10 ∧ e12Round 900000 = 820000 := by decide +kernel

/-- V51, P1 step 26. -/
theorem test_chIdent :
    let t := after (.chIdent .ch0 11818) State.reset
    t.ch0.idOhms = 2200 ∧ t.ch0.iron = .t12 ∧ t.ch0.tip = 0 ∧ (t.tip 0).name = 0 ∧ t.ch0.state = .off
      ∧ t.ch0.k = ⟨2000, 500, 2, 50000⟩ ∧ (after (.chIdent .ch0 65535) State.reset).ch0.idOhms = 0
      ∧ (after (.chIdent .ch0 65535) State.reset).ch0.state = .noTool := by decide +kernel

/-- P5 step 5. -/
theorem test_chSetiron :
    let s := withChan { hot with state := .off, ctlEn := false, curOut := 75656 }
    let t := after (.chSetiron .ch0 .weller) s
    t.ch0.iron = .weller ∧ t.ch0.tip = 1 ∧ t.ch0.selectedTip = 1 ∧ (t.tip 1).name = 12 ∧ t.ch0.state = .off
      ∧ t.ch0.curOut = 0 ∧ after (.chSetiron .ch0 .t12) s = s := by decide

/-- V53: the last tip, and the lowest slot of the type. -/
theorem test_chTipsel :
    let s := { State.reset with
      tips := (State.reset.tips.set 0 (defaultRecord Config.default 6)).set 1 (defaultRecord Config.default 1)
      ch0 := { State.reset.ch0 with iron := .t12, selectedTip := 1 }
      ch1 := { State.reset.ch1 with iron := .jbc, selectedTip := 1 } }
    (after (.chTipsel .ch0) s).ch0.tip = 1 ∧ (after (.chTipsel .ch1) s).ch1.tip = 0
      ∧ (after (.chTipsel .ch1) s).ch1.selectedTip = 0 := by decide

/-- V60. -/
theorem test_chIdle :
    let s := heating
    let t := after (.chIdle .ch0 299999) s
    let u := after (.chIdle .ch0 1) t
    t.ch0.state = .active ∧ u.ch0.state = .setback
      ∧ (after (.chIdle .ch0 899999) u).ch0.state = .setback
      ∧ (after (.chIdle .ch0 900000) u).ch0.state = .off
      ∧ (after (.chIdle .ch1 10) { s with ch1 := { s.ch1 with idleMs := 4294967290 } }).ch1.idleMs
        = 4294967295 := by decide

theorem test_chOverload :
    (after (.chOverload .ch0) heating).ch0.state = .overload
      ∧ (after (.chOverload .ch0) heating).ch0.led = true := by decide

/-- P1 interval 18. -/
theorem test_chUpddrive :
    let t := after (.chUpddrive .ch0) (withChan { hot with duty := 75, acc := 75 })
    t.ch0.drive = 0b01 ∧ t.ch0.acc = 50
      ∧ (after (.chUpddrive .ch0) (withChan { hot with state := .off, duty := 75, acc := 75 })).ch0.acc = 75 := by
  decide

/-- R189: an identification sample of a running channel is dropped. -/
theorem test_chProc :
    after (.chProc .ch0 0x02 11818) heating = heating
      ∧ (after (.chProc .ch1 0x02 11818) heating).ch1.iron = .t12
      ∧ (after (.chProc .ch0 0x04 6000) heating).ch0.rawA = 6000 := by decide +kernel

/-- V61. -/
theorem test_chSetst :
    let s := withChan { hot with duty := 37, on := true, drive := 1, acc := 5, curOut := 9 }
    let t := after (.chSetst .ch0 .off) s
    t.ch0.ctlEn = false ∧ t.ch0.duty = 0 ∧ t.ch0.on = false ∧ t.ch0.drive = 0 ∧ t.ch0.voltSel = 0
      ∧ t.ch0.led = false ∧ t.ch0.acc = 5 ∧ t.ch0.curOut = 9
      ∧ after (.chSetst .ch0 .setback) s = { s with ch0 := { s.ch0 with state := .setback } } := by decide

/-- V40. -/
theorem test_movingAvg :
    let m := pushAll 8 [100, 200, 300, 400, 500, 600, 700, 800, 900]
    m.sum = 4400 ∧ m.cnt = 8 ∧ m.idx = 1 ∧ m.avg = 550 ∧ (pushAll 8 [1, 2]).avg = 1
      ∧ (pushAll 8 []).avg = 0 := by decide

/-- V41. -/
theorem test_interp3 :
    let r := defaultRecord Config.default 0
    interp3 r 0 = 625 ∧ interp3 r 7001 = 3250 ∧ interp3 r 9500 = 4187 ∧ interp3 r 16777215 = 32767
      ∧ interp3 { r with calM := ⟨7000, 7000, 9000⟩ } 6000 = 2500 := by decide

/-! The step -/

/-- R286: the order of what is pending; a word that is no host command is turned away (V-E2). -/
theorem test_step_order :
    let p : Pending :=
      { rst := false, oc := false, zc := true, tmr := true, adc := some (0x04, 6000), cmd := some 0x1000000000000000 }
    step { State.reset with pend := p } = exec .evZc { State.reset with pend := { p with zc := false } }
      ∧ (match step (State.reset.withFetchWord 64 0x0200000000000000) with
          | .next t => t.refreshCnt == 1
          | .fault _ => false
          | .refused _ => false) = true
      ∧ (match step { State.reset with pend := { Pending.clear with cmd := some 0x8000000000000000 } } with
          | .next t => t.cmdCode == some .illegal
          | .fault _ => false
          | .refused _ => false) = true := ⟨rfl, by decide, by decide⟩

/-- R97: streams refused whole, and one that runs. -/
theorem test_runStream :
    runStream [0x0200000000000000, 0x8000000000000000] State.reset = .refused .internalStimulus
      ∧ runStream [0x0200000000000000, 0] State.reset = .refused .illegalStimulus
      ∧ (match runStream [0x1000000000000000, 0x0200000000000000] State.reset with
          | .next t => t.timerArmed
          | .fault _ => false
          | .refused _ => false) = true := ⟨rfl, rfl, by decide⟩

/-- R60, R310: `rst` is a level. While it is held every step is a reset, a pulse is lost and the outputs show
their reset values; after the release the next pulse is taken. -/
theorem test_rst_held :
    let held := ({ heating with ch0 := { hot with drive := 1 } }).setRst true
    held.outputPins.ch0.drive = 0 ∧ held.outputPins.adcMux = 0xFF ∧ held.pulseZc = held
      ∧ step held = .next { State.reset with rst := true }
      ∧ step { State.reset with rst := true } = .next { State.reset with rst := true }
      ∧ step (({ State.reset with rst := true }).setRst false).pulseZc
        = exec .evZc State.reset := ⟨by decide, by decide, rfl, rfl, rfl, rfl⟩

/-- R60, R310: a hold in which no step falls resets too; before it the outputs are the written ones (R61), and
a pulse after it is taken. -/
theorem test_rst_short :
    let s := { heating with ch0 := { hot with drive := 1 } }
    s.outputPins.ch0 = { drive := 1, voltSel := 1, led := true }
      ∧ (s.pulseZc.setRst true).setRst false = State.reset
      ∧ step ((s.setRst true).setRst false).pulseZc = exec .evZc State.reset := ⟨by decide, rfl, rfl⟩

/-- R80, R185, R200: turned off, a driven channel loses its drive, then its supply, then its LED, and the
response comes last; no value the pins take on the way has the drive on and the supply off. -/
theorem test_pinOrder_setstate :
    let s := (withChan { hot with drive := 1 }).withFetchWord 64 0x2000000000000000
    stepPinWrites s
        = [.adcStart false, .tmrArm false, .chan .ch0 (.drive 0), .chan .ch0 (.voltSel 0),
           .chan .ch0 (.led false), .resp 0, .respOk true]
      ∧ (s.pinHistory.all fun p => p.ch0.drive == 0 || p.ch0.voltSel == 1) = true := by decide +kernel

/-- R80, R221: at a zero crossing the drives fall first and the timer's pulse comes last; R226, R227: the next
code is on `adc_mux` before the pulse on `adc_start`. -/
theorem test_pinOrder_events :
    pinWrites .evZc { heating with refreshCnt := 9, reportCnt := 3 }
        = [.chan .ch0 (.drive 0), .chan .ch1 (.drive 0), .refreshReq true, .tmrArm true]
      ∧ pinWrites (.evAdc 0x04 6000) converting = [.adcMux 0x0A, .adcStart true]
      ∧ pinWrites (.evAdc 0x0A 6000) converting
        = [.fatal true, .chan .ch0 (.drive 0), .chan .ch1 (.drive 0)] := by decide +kernel

/-- R80, R194: an iron change goes through `noTool` (drive, supply, LED) and ends in `off`; R203, R283: a tip
of another type halts the machine before the command answers. -/
theorem test_pinOrder_channel :
    pinWrites (.chSetiron .ch0 .weller) heating
        = [.chan .ch0 (.drive 0), .chan .ch0 (.voltSel 0), .chan .ch0 (.led false),
           .chan .ch0 (.voltSel 0), .chan .ch0 (.led false)]
      ∧ pinWrites (.chChangetip .ch0 2)
          { heating with tips := heating.tips.set 2 (defaultRecord Config.default 12) }
        = [.fatal true, .chan .ch0 (.drive 0), .chan .ch1 (.drive 0), .resp 0xFFFFFFFF, .respOk false] := by
  decide +kernel

/-- R111: the tags of a half cycle come from the queue. -/
theorem test_halfcycle :
    halfcycle heating [6000, 250]
        = some [.evZc, .evTmr, .evAdc 0x04 6000, .evAdc 0x0A 250]
      ∧ halfcycle heating [6000] = none := by decide

/-! Witnesses: a state and operands that meet the hypotheses of each statement that has any -/

/-- `heating` with a stimulus pending. -/
def given (p : Pending) (s : State) : State := { s with pend := p }

/-- A host command presented to a state. -/
def command (w : StimWord) (s : State) : State := given { Pending.clear with cmd := some w } s

/-- Two tips, of a T12 and of a Weller iron, in slots 0 and 2. -/
def twoTips : State := { heating with tips := heating.tips.set 2 (defaultRecord Config.default 12) }

/-- The words of the opcodes at both ends of every reserved range of R96. -/
def reservedEnds : List StimWord :=
  [0x00, 0x06, 0x0F, 0x14, 0x1F, 0x2B, 0x2F, 0x35, 0x3F, 0x43, 0x4F, 0x52, 0x7F, 0x83, 0x87, 0x8C, 0x8F, 0x93,
    0x97, 0x9E, 0x9F, 0xA8, 0xAF, 0xB3, 0xBE, 0xC0, 0xFF].map fun op => op <<< 56

theorem witness_decodeEncodeAgree :
    (Instr.evAdc 0xFF 0xFFFF).issuable = true ∧ (Instr.calSet .ch1 15 0xFFFF 0xFFFFFFFF).issuable = true
      ∧ (Instr.dccSet .ch0 0).isInternal = true ∧ decode 0x0200000000000000 = .ok .evZc := ⟨rfl, rfl, rfl, rfl⟩

theorem witness_decodingFollowsTheTable :
    (∀ r ∈ opcodeTable, r.op ≠ opField 0)
      ∧ (∃ r ∈ opcodeTable, r.op = opField 0x1000000000000001
        ∧ 0x1000000000000001 &&& r.format.mask ≠ r.pattern)
      ∧ ∃ r ∈ opcodeTable, r.op = opField 0x2012000000000000
        ∧ 0x2012000000000000 &&& r.format.mask = r.pattern := by decide

theorem witness_muxCodes :
    codeBits 0x00 = true ∧ codeBits 0x1F = true ∧ untagged 0x00 = true ∧ untagged 0x1E = true := by decide

theorem witness_stepRuns :
    configLegal State.reset.cfg = true ∧ decode 0x0400000400001770 = .ok (.evAdc 0x04 6000)
      ∧ (Instr.evAdc 0x04 6000).issuable = true := ⟨by decide, rfl, rfl⟩

/-- The pin held, and the pin released with each latch in turn first. -/
theorem witness_stimuliTakenInOrder :
    configLegal ({ heating with rst := true } : State).cfg = true ∧ ({ heating with rst := true } : State).rst = true
      ∧ heating.rst = false ∧ heating.pend.rst = false ∧ heating.pulseOc.pend.oc = true
      ∧ heating.pulseZc.pend.zc = true ∧ heating.pulseTmr.pend.tmr = true
      ∧ (heating.pulseAdc 0x04 6000).pend.adc = some (0x04, 6000)
      ∧ (heating.presentCommand 0).pend.cmd = some 0 :=
  ⟨by decide, rfl, rfl, rfl, rfl, rfl, rfl, rfl, rfl⟩

theorem witness_otherWords :
    (command 0xBF00000000000000 heating).pend.first = some (.cmd 0xBF00000000000000)
      ∧ (command 0xBF00000000000000 heating).rst = false
      ∧ (∃ i, decode 0xBF00000000000000 = .ok i ∧ i.isHost = false ∧ i.isInternal = true)
      ∧ (reservedEnds.all fun w => match decode w with | .ok _ => false | .error _ => true) = true
      ∧ (∃ e, decode 0 = .error e)
      ∧ { Config.default with adcBits := 12 }.adcFs < (4096 : BitVec 16).toNat
      ∧ (∀ v ∈ [(0x1000000000000000 : StimWord), 0x0200000000000000],
        ∃ i, decode v = .ok i ∧ i.issuable = true) := by
  refine ⟨rfl, rfl, ⟨_, rfl, rfl, rfl⟩, by decide, ⟨_, rfl⟩, by decide, fun v hv => ?_⟩
  simp only [List.mem_cons, List.not_mem_nil, or_false] at hv
  obtain rfl | rfl := hv
  · exact ⟨.ctlEnable, rfl, rfl⟩
  · exact ⟨.evZc, rfl, rfl⟩

theorem witness_parameters :
    configLegal misconfigured.cfg = false ∧ (∃ t, exec .evZc heating = .next t) ∧ ∃ t, step heating = .next t :=
  ⟨by decide, ⟨_, rfl⟩, ⟨_, rfl⟩⟩

/-- Each of these changes the element of the Control block, the queue or the pool its clause names. -/
theorem witness_stateIsWritten :
    (after .ctlEnable State.reset).ctlEnabled ≠ State.reset.ctlEnabled
      ∧ (after (.evAdc 0x0A 250) converting).fatal ≠ converting.fatal
      ∧ (after .evZc converting).overrun ≠ converting.overrun
      ∧ (after (.chInteract .ch0) halted).cmdErr ≠ halted.cmdErr
      ∧ (after .evZc heating).timerArmed ≠ heating.timerArmed
      ∧ (after (.evAdc 0x04 6000) converting).qIdx ≠ converting.qIdx
      ∧ (after .evZc heating).tmrArm ≠ heating.tmrArm
      ∧ (after .evTmr { heating with timerArmed := true }).q ≠ heating.q
      ∧ (after .evZc heating).refreshCnt ≠ heating.refreshCnt
      ∧ (after .evOc heating).refreshReq ≠ heating.refreshReq
      ∧ (after (.regWr 0x0005 0x200) { heating with logReq := true }).logReq ≠ true
      ∧ (after .ctlChiptemp { heating with chipTempIn := 1 }).chipTemp ≠ heating.chipTemp
      ∧ (after (.tipFree 0) (withChan State.reset.ch0)).tips ≠ heating.tips := by decide

/-- The same of a channel. -/
theorem witness_channelIsWritten :
    let off : Channel := { State.reset.ch0 with iron := .t12, tip := 0, selectedTip := 0 }
    let s := withChan off
    (after (.chSetstate .ch0 2) s).ch0.state ≠ off.state
      ∧ (after (.chSettemp .ch0 1) heating).ch0.userTemp ≠ hot.userTemp
      ∧ (after (.chNextpreset .ch0) heating).ch0.preset ≠ hot.preset
      ∧ (after (.chInteract .ch0) (withChan { hot with idleMs := 1 })).ch0.idleMs ≠ 1
      ∧ (after (.chChangetip .ch0 0) (withChan { hot with k := ⟨0, 0, 0, 0⟩ })).ch0.k ≠ ⟨0, 0, 0, 0⟩
      ∧ (after .evTmr { s with timerArmed := true }).ch0.identCnt ≠ off.identCnt
      ∧ (after (.chFixedpwr .ch0 1) heating).ch0.fixedDuty ≠ hot.fixedDuty
      ∧ (after .evZc (withChan { hot with drive := 1 })).ch0.drive ≠ 1
      ∧ (after .ctlDisable heating).ch0.voltSel ≠ hot.voltSel
      ∧ (after (.regWr 0x0113 1) heating).ch0.setbackTemp ≠ hot.setbackTemp
      ∧ (after (.tipFree 0) (withChan { off with tip := 0xFF })).ch0.selectedTip ≠ off.selectedTip
      ∧ (after (.evAdc 0x04 6000) converting).ch0.avgA ≠ hot.avgA
      ∧ (after (.chSetstate .ch0 2) (withChan { off with curOut := 9 })).ch0.iAcc ≠ off.iAcc := by decide

/-- A completion that ends in the control update, and one that identifies an iron (`test_evAdc_sequence`,
`test_chProc`). -/
def lastSample (ch : Channel) : State :=
  { withChan ch with q := queueOf [0x04, 0x0A], qLen := 2, qIdx := 1, adcBusy := true }

theorem witness_channelIsMeasured :
    let t := after (.evAdc 0x0A 250) (lastSample (sampled 6000 250))
    t.ch0.curTemp ≠ hot.curTemp ∧ t.ch0.curOut ≠ hot.curOut ∧ t.ch0.duty ≠ hot.duty := by decide

theorem witness_invariantsHoldAtReset :
    configLegal Config.default = true ∧ configLegal { Config.default with numTipSettings := 64 } = true := by decide

theorem witness_schedulerInv : SchedulerInv converting ∧ CountersInv converting ∧ DispatchInv converting := by
  refine ⟨?_, by unfold CountersInv; decide, fun _ i _ h => ?_⟩
  · refine ⟨by decide, by decide, by decide, by decide, fun i h h8 => ?_, by decide⟩
    have h : 2 ≤ i := h
    revert h
    revert i
    decide
  · have h : i < 2 := h
    obtain rfl | rfl : i = 0 ∨ i = 1 := by omega
    all_goals exact .inr (by decide)

/-- The invariants of the scheduler with the last conversion's completion pending. -/
theorem witness_queueInvariantKept :
    let s := given { Pending.clear with adc := some (0x04, 6000) } converting
    SchedulerInv s ∧ CountersInv s ∧ DispatchInv s ∧ ∃ t, step s = .next t :=
  ⟨witness_schedulerInv.1, witness_schedulerInv.2.1, witness_schedulerInv.2.2, ⟨_, rfl⟩⟩

theorem witness_poolInv : (∀ i ∈ twoTips.cfg.tipNameIron, i ≠ .unknown) ∧ PoolInv twoTips
    ∧ ∃ t, step twoTips = .next t := by
  refine ⟨by decide, ⟨by decide, fun r hr => ?_⟩, ⟨_, rfl⟩⟩
  have h : r = TipRecord.free ∨ r = defaultRecord Config.default 0 ∨ r = defaultRecord Config.default 12 := by
    revert hr; revert r; decide
  obtain rfl | rfl | rfl := h <;>
    exact ⟨by decide, by intro i; cases i <;> decide, by intro i; cases i <;> decide,
      by intro i; cases i <;> decide⟩

/-- Channel 0 at a fixed duty, of an iron with nothing to measure: EV.TMR runs the control update at once. -/
def unmeasured : Channel :=
  { State.reset.ch0 with state := .fixedPower, iron := .dummy, voltSel := vselOf Config.default .dummy, led := true }

/-- Channel 0 in each state a cause of R181 moves it from. -/
def movable : List Channel :=
  [hot, { hot with state := .setback }, { hot with presentA := false }, { hot with idleMs := 299990 },
    { hot with idleMs := 1199990 }, { hot with state := .noTip, ctlEn := false, voltSel := 0, led := false },
    { hot with state := .off, ctlEn := false, voltSel := 0, led := false }, unmeasured]

theorem resetChannel_inv : ChannelInv Config.default heating.tips (.reset Config.default) :=
  ⟨by unfold DutyInv; decide, by unfold StateInv; decide, by unfold PinsInv; decide,
    by unfold TipRefInv; decide, ⟨by decide, by decide, by intro i; cases i <;> decide, by decide⟩,
    by unfold OutputInv; decide⟩

theorem witness_movable : ∀ ch ∈ movable, ChannelsInv (withChan ch) := by
  intro ch h c
  simp only [movable, List.mem_cons, List.not_mem_nil, or_false] at h
  cases c
  · rcases h with rfl | rfl | rfl | rfl | rfl | rfl | rfl | rfl <;>
      exact ⟨by unfold DutyInv; decide, by unfold StateInv; decide, by unfold PinsInv; decide,
        by unfold TipRefInv; decide, ⟨by decide, by decide, by intro i; cases i <;> decide, by decide⟩,
        by unfold OutputInv; decide⟩
  · exact resetChannel_inv

theorem witness_channelsInv : heating.poolWf = true ∧ ChannelsInv heating :=
  ⟨by decide, witness_movable hot (by simp [movable])⟩

theorem witness_averagesInv : ∀ c, AveragesInv heating.cfg (heating.chan c) := by
  have h (n : Nat) (hn : 0 < n) : AverageOk n (.empty n) := by
    refine ⟨by simp [MovingAvg.empty], Nat.zero_le _, hn, fun _ => ⟨rfl, fun i _ => ?_⟩, ?_⟩
    · simp [MovingAvg.empty]
    · simp [MovingAvg.empty, List.sum_replicate]
  intro c
  cases c <;> exact ⟨h _ (by decide), h _ (by decide), h _ (by decide), h _ (by decide)⟩

/-- A tip of the wrong iron type chosen by the host. -/
theorem witness_onlyTipMismatchTraps :
    let s := command 0x2300000000000002 twoTips
    SchedulerInv s ∧ DispatchInv s ∧ s.platformObeys = true ∧ s.fatal = false
      ∧ ∃ t, step s = .next t ∧ t.fatal = true := by
  refine ⟨⟨by decide, by decide, by decide, by decide, fun i _ h8 => ?_, by decide⟩,
    fun h => absurd h (by decide),
    by decide, by decide, ⟨_, rfl, by decide⟩⟩
  revert h8
  revert i
  decide

theorem witness_haltInv : HaltInv halted ∧ HaltInv heating ∧ HaltInv (heating.reject .full) := by
  unfold HaltInv; decide

theorem witness_noStepDrives :
    let s := given { Pending.clear with zc := true } heating
    s.poolWf = true ∧ ChannelsInv s ∧ HaltInv s ∧ ∃ t, step s = .next t :=
  ⟨witness_channelsInv.1, witness_channelsInv.2, witness_haltInv.2.1, ⟨_, rfl⟩⟩

/-- The state channel 0 ends in, from a state of `movable`. -/
def moved (i : Instr) (s : State) : ChState := (after i s).ch0.state

/-- Each cause of R181 moves channel 0, from states that `witness_movable` shows to be met. -/
theorem witness_onlyTableTransitions :
    let off : Channel := { hot with state := .off, ctlEn := false, voltSel := 0, led := false }
    (ChannelsInv heating ∧ ∃ t, exec .evOc heating = .next t ∧ t.ch0.state ≠ heating.ch0.state)
      ∧ moved .evTmr { withChan unmeasured with timerArmed := true } = .off
      ∧ moved (.evAdc 0x0A 0) (lastSample { hot with presentA := false }) = .noTip
      ∧ moved (.evAdc 0x0A 0) (lastSample { hot with idleMs := 299990 }) = .setback
      ∧ moved (.evAdc 0x0A 0) (lastSample { hot with idleMs := 1199990 }) = .off
      ∧ moved .ctlDisable heating = .off ∧ moved .ctlToggle heating = .off
      ∧ moved (.chSetstate .ch0 0) heating = .off ∧ moved (.chSetstate .ch0 2) (withChan off) = .active
      ∧ moved (.chFixedpwr .ch0 9) (withChan off) = .fixedPower
      ∧ moved (.chInteract .ch0) (withChan { hot with state := .setback }) = .active
      ∧ moved .evRst heating = .off :=
  ⟨⟨witness_channelsInv.2, ⟨_, rfl, by decide⟩⟩, by decide⟩

/-- Identification: an open input drops a channel without a tip, a resistance takes it from there (R194). -/
theorem witness_identification :
    let queued (ch : Channel) : State :=
      { withChan ch with q := queueOf [0x02], qLen := 1, qIdx := 0, adcBusy := true }
    let s := queued { hot with state := .noTip, ctlEn := false, voltSel := 0, led := false }
    let t := after (.evAdc 0x02 65535) s
    moved (.evAdc 0x02 65535) s = .noTool ∧ t.ch0.iron = .unknown ∧ moved (.evAdc 0x02 11818) (queued t.ch0) = .off := by
  decide +kernel

/-- The three ways a command ends. -/
theorem witness_everyCommandAnswers :
    (after (.chInteract .ch0) heating).respOk = true
      ∧ after (.chSetstate .ch0 1) heating = heating.reject .range
      ∧ (after (.chChangetip .ch0 2) twoTips).fatalCode = some .tipMismatch := by decide

theorem witness_dutyIsExact :
    (withChan { hot with acc := 99, duty := 100 }).ch0.acc.toNat < 100
      ∧ (withChan { hot with acc := 99, duty := 100 }).ch0.duty.toNat ≤ 100
      ∧ (withChan { hot with acc := 0, duty := 0 }).ch0.duty.toNat ≤ 100 := by decide

theorem witness_controllerEnable :
    true = (heating.chan .ch0).ctlEn ∧ (heating.chan .ch1).ctlEn = false
      ∧ (halted.chan .ch1).ctlEn = false := by decide

theorem witness_pidStays :
    let s := withChan { hot with curOut := 100000, haveErr := true, lastErr := 0xFFFFFFFF }
    configLegal s.cfg = true ∧ (s.chan .ch0).ctlEn = true ∧ (∃ t, exec (.pidStep .ch0 3500 3500) s = .next t)
      ∧ (s.chan .ch0).curOut.toInt ≥ s.cfg.outMaxM ∧ (s.chan .ch0).haveErr = true
      ∧ ((3500 : BitVec 16).toNat : Int) - (3500 : BitVec 16).toInt > (s.chan .ch0).lastErr.toInt :=
  ⟨by decide, by decide, ⟨_, rfl⟩, by decide, by decide, by decide⟩

theorem witness_transfer :
    (∀ i ∈ [Instr.pidStep .ch0 3500 3000, Instr.tbhStep .ch0 3500 3600], isControllerStep .ch0 i = true)
      ∧ (heating.chan .ch0).ctlEn = true ∧ (heating.cfg.outMinM : Int) ≤ (heating.chan .ch0).curOut.toInt
      ∧ (heating.chan .ch0).curOut.toInt ≤ heating.cfg.outMaxM
      ∧ ((3500 : BitVec 16).toNat : Int) = (3500 : BitVec 16).toInt := by decide

theorem witness_takeBackHalf :
    configLegal heating.cfg = true ∧ (heating.chan .ch1).ctlEn = false
      ∧ 0 ≤ (heating.chan .ch1).curOut.toInt ∧ (heating.chan .ch1).curOut.toInt ≤ heating.cfg.outMaxM := by
  decide

/-- After one step with a positive error a negative one is a sign change. -/
theorem witness_takeBackHalf_flip :
    let s := withChan { hot with state := .off, ctlEn := false }
    let r := lastFlipOutput .ch0 [(3500, 3000)] (after (.ctlEn .ch0 true) s) (.number 0)
    (s.chan .ch0).ctlEn = false ∧ (r.2.chan .ch0).haveErr = true
      ∧ (((3500 : BitVec 16).toNat : Int) - (3600 : BitVec 16).toInt < 0
        ↔ ¬ (r.2.chan .ch0).lastErr.toInt < 0) := by decide

theorem witness_average :
    let window := [100, 200, 300, 400, 500, 600, 700, 800, 900].drop 1
    0 < 8 ∧ (window.map (BitVec.toNat (w := 32))).sum < 2 ^ 32 := by decide

/-- The default table of a T12 tip, and tables with each segment empty. -/
theorem witness_interpolation :
    let r := defaultRecord Config.default 0
    let e := { r with calM := ⟨7000, 7000, 7000⟩ }
    (r.calM.x1 ≠ r.calM.x0 ∧ r.calM.x2 ≠ r.calM.x1)
      ∧ (r.calM.x0 < r.calM.x1 ∧ r.calM.x1 < r.calM.x2)
      ∧ (r.calT.x0.toNat ≤ 32767 ∧ r.calT.x1.toNat ≤ 32767 ∧ r.calT.x2.toNat ≤ 32767)
      ∧ r.calT.x0.toNat ≤ r.calT.x1.toNat ∧ r.calT.x1.toNat ≤ r.calT.x2.toNat
      ∧ e.calM.x1 = e.calM.x0 ∧ e.calM.x2 = e.calM.x1 := by decide

theorem witness_controllerUpdate :
    let s := withChan (sampled 6000 250)
    configLegal s.cfg = true ∧ (3125 : BitVec 16).toInt = (s.chan .ch0).measTemp s.cfg s.tips := by decide

theorem witness_conversionComplete :
    (0xFFFF : BitVec 16).toNat ≤ converting.cfg.adcFs ∧ converting.cfg.idleTickMs < 2 ^ 32 := by decide

theorem witness_trapHalts :
    halted.fatal = true
      ∧ ∀ i ∈ [Instr.evRst, .evZc, .evTmr, .evAdc 0x04 0xFFFF, .evOc, .regRd 0, .chInteract .ch1],
        i.issuable = true ∧ WellFormed halted.cfg i = true := by decide

theorem witness_calibration :
    (0 : BitVec 4).toNat = Idx3.i0.num ∧ (2 : BitVec 4).toNat = Idx3.i2.num ∧ 2 < (3 : BitVec 4).toNat
      ∧ 2 < (15 : BitVec 4).toNat ∧ heating.fatal = false ∧ (32767 : BitVec 16).toNat ≤ 32767
      ∧ (16777215 : BitVec 32).toNat ≤ 16777215 ∧ (heating.chan .ch0).tip.toNat < heating.tips.length
      ∧ (heating.chan .ch0).tip ≠ 0xFF ∧ ∃ u, exec (.calSet .ch0 2 32767 16777215) heating = .next u :=
  ⟨by decide, by decide, by decide, by decide, by decide, by decide, by decide, by decide, by decide, ⟨_, rfl⟩⟩

/-- The ends of the ranges that are no register. -/
theorem witness_registersRead :
    heating.cfg.numTipSettings ≤ 64
      ∧ ([(0x0006 : BitVec 16), 0x000F, 0x0018, 0x00FF, 0x0119, 0x01FF, 0x0219, 0x02FF, 0x0300, 0x03FF,
          0x040C, 0x047F, 0x0480, 0xFFFF].all fun a =>
            (after (.regRd a) heating).cmdCode == some .addr) = true := by decide

/-- The code each write at the ends of the ranges of R51 to R54 is rejected with, `none` where it is accepted. -/
theorem witness_registerWrite :
    ([(0x0000, 0, some .ro), (0x0004, 0, some .ro), (0x0010, 0, some .ro), (0x0017, 0, some .ro),
        (0x0100, 0, some .ro), (0x010F, 0, some .ro), (0x0117, 0, some .ro), (0x0218, 0, some .ro),
        (0x0006, 0, some .addr), (0x000F, 0, some .addr), (0x0018, 0, some .addr), (0x00FF, 0, some .addr),
        (0x0119, 0, some .addr), (0x01FF, 0, some .addr), (0x0219, 0, some .addr), (0x03FF, 0, some .addr),
        (0x040C, 0, some .addr), (0x047F, 0, some .addr), (0x0480, 0, some .addr), (0xFFFF, 0, some .addr),
        (0x0005, 0x720, none), (0x0005, 0x721, some .range), (0x0110, 32767, none),
        (0x0212, 32768, some .range), (0x0113, 32767, none), (0x0213, 32768, some .range),
        (0x0114, 65535, none), (0x0115, 65536, some .range), (0x0116, 7, none), (0x0116, 8, some .range),
        (0x0216, 0xFFFF, none)] : List (BitVec 16 × BitVec 32 × Option RejectCode)).all
      (fun x => (after (.regWr x.1 x.2.1) heating).cmdCode == x.2.2) = true := by decide

/-- The same of the tip records: slot 0 is in use, slot 7 is not. -/
theorem witness_tipRegisterWrite :
    ([(0x0400, 1, some .inUse), (0x0400, 16, some .range), (0x0470, 15, none), (0x0470, 0xFFFF, none),
        (0x0401, 3, none), (0x0401, 4, some .range), (0x0402, 32767, none), (0x0476, 32768, some .range),
        (0x0403, 16777215, none), (0x0477, 16777216, some .range), (0x0408, 1000000, none),
        (0x047B, 1000001, some .range)] : List (BitVec 16 × BitVec 32 × Option RejectCode)).all
      (fun x => (after (.regWr x.1 x.2.1) heating).cmdCode == x.2.2) = true := by decide

theorem witness_writeThenRead :
    configLegal heating.cfg = true ∧ heating.poolWf = true
      ∧ ∃ t, exec (.regWr 0x0472 1) twoTips = .next t ∧ t.respOk = true :=
  ⟨by decide, by decide, ⟨_, rfl, by decide⟩⟩

end Sys2Proof.Tests
end

