-- ==== Sys2Proof/Proofs/ParametersAreConstant.lean ====
section
/-! The parameters of R8 are constant (00_scope.md R9): one lemma per shared operation over the state, then
one case per operation of R94, then the step. -/

namespace Sys2Proof.Machine

/-! Host commands and traps -/

theorem State.hostCommand_cfg {s : State} {body : State → State} (h : (body s).cfg = s.cfg) :
    (s.hostCommand body).cfg = s.cfg :=
  State.hostCommand_induct (P := fun t => t.cfg = s.cfg) (fun _ => rfl) (fun _ => h)

@[simp] theorem State.raiseFatalInCommand_cfg (s : State) (code : FatalCause) :
    (s.raiseFatalInCommand code).cfg = s.cfg := rfl

@[simp] theorem State.disable_cfg (s : State) : s.disable.cfg = s.cfg := rfl

@[simp] theorem State.regWrite_cfg (v : RegWord) (s : State) (r : Reg) : (s.regWrite v r).cfg = s.cfg := by
  cases r with
  | chan c r => exact State.updChan_cfg s c _
  | tip i r => exact State.setTip_cfg s i _
  | irqClear | ctlStatus | seqPtr | refreshCnt | reportCnt | chipTemp | seqQ => rfl

/-! Samples -/

@[simp] theorem State.measProc_cfg (c : Chan) (m : MuxCode) (raw : BitVec 16) (s : State) :
    (s.measProc c m raw).state.cfg = s.cfg := by
  unfold State.measProc
  split
  · exact State.raiseFatal_cfg s .measMux
  · exact State.updChan_cfg s c _

@[simp] theorem State.chProc_cfg (c : Chan) (m : MuxCode) (raw : BitVec 16) (s : State) :
    (s.chProc c m raw).state.cfg = s.cfg := by
  unfold State.chProc
  split
  · split
    · rfl
    · exact State.putChannel_cfg s c _
  · exact State.measProc_cfg c m raw s

/-! The scheduler -/

@[simp] theorem State.zcArm_cfg (s : State) : s.zcArm.cfg = s.cfg := by
  unfold State.zcArm
  repeat' split
  all_goals rfl

@[simp] theorem State.evZc_cfg (s : State) : s.evZc.cfg = s.cfg := by
  unfold State.evZc
  split
  · rfl
  · exact State.zcArm_cfg s.zcAlways

@[simp] theorem State.evTmr_cfg (s : State) : s.evTmr.cfg = s.cfg := by
  simp only [State.evTmr]
  repeat' split
  all_goals rfl

@[simp] theorem State.adcAdvance_cfg (s : State) : s.adcAdvance.cfg = s.cfg := by
  simp only [State.adcAdvance]
  split <;> rfl

@[simp] theorem State.evAdc_cfg (tag : MuxCode) (raw : BitVec 16) (s : State) :
    (s.evAdc tag raw).cfg = s.cfg := by
  unfold State.evAdc
  split
  · rfl
  split
  · exact State.raiseFatal_cfg s .adcDesync
  have hproc := State.chProc_cfg (chanOf tag) (muxStrip tag) raw { s with adcBusy := false }
  split <;> rename_i u hu <;> rw [hu] at hproc
  · exact hproc
  · exact (State.adcAdvance_cfg u).trans hproc

@[simp] theorem State.evOc_cfg (s : State) : s.evOc.cfg = s.cfg := by
  unfold State.evOc
  split <;> rfl

/-! Operations with guards of their own outside `hostCommand` -/

theorem execEvAdc_cfg {tag : BitVec 8} {raw : BitVec 16} {s t : State} (h : execEvAdc tag raw s = .next t) :
    t.cfg = s.cfg := by
  unfold execEvAdc at h
  split at h
  · cases h
  · cases h
    exact State.evAdc_cfg tag raw s

theorem execRegRd_cfg {a : BitVec 16} {s t : State} (h : execRegRd a s = .next t) : t.cfg = s.cfg := by
  unfold execRegRd at h
  repeat' split at h
  all_goals cases h; simp

/-- R9: no operation changes a parameter. -/
theorem exec_cfg (i : Instr) {s t : State} (h : exec i s = .next t) : t.cfg = s.cfg := by
  cases i with
  | evAdc tag raw => exact execEvAdc_cfg h
  | regRd a => exact execRegRd_cfg h
  | evRst | seqBuild | seqNext | ctrlUpdate | dccIson | muxMake | muxTag | muxStrip | measSeq | measTemp
  | measItemp => cases h; rfl
  | evZc => cases h; exact State.evZc_cfg s
  | evTmr => cases h; exact State.evTmr_cfg s
  | evOc => cases h; exact State.evOc_cfg s
  | trapFatal code => cases h; exact State.raiseFatal_cfg s code
  | measProc c m raw => cases h; exact State.measProc_cfg c m raw s
  | chProc c m raw => cases h; exact State.chProc_cfg c m raw s
  | dccSet c | dccAdv c | ctlLoad c | ctlEn c | measUpd c | chIdle c | chOverload c | chUpddrive c
  | chSetst c => cases h; exact State.updChan_cfg s c _
  | pidStep c | tbhStep c | measDrive c => cases h; exact State.setChan_cfg s c _
  | chIdent c | chSetiron c | chTipsel c => cases h; exact State.putChannel_cfg s c _
  | ctlEnable | ctlDisable | ctlChiptemp | chGetstate | chGetcur | chGettgt | chGetpwr | chIsmod
  | calInst => cases h; exact State.hostCommand_cfg rfl
  | chNextpreset | chInteract => cases h; exact State.hostCommand_cfg (by simp)
  | ctlToggle | chSettemp | calSet | calGett | calGetm | tipFind | regWr =>
    cases h
    refine State.hostCommand_cfg ?_
    repeat' split
    all_goals simp
  | chSetstate | chChangetip | chFixedpwr | calSave | tipAlloc | tipFree =>
    cases h
    refine State.hostCommand_cfg ?_
    dsimp only
    repeat' split
    all_goals simp

/-- R9: no step changes a parameter. -/
theorem step_cfg {s t : State} (h : step s = .next t) : t.cfg = s.cfg := by
  obtain ⟨-, rfl | ⟨st, -, ⟨i, -, -, hexec⟩ | rfl⟩⟩ := step_cases h
  · exact State.dropPulses_cfg s
  · exact (exec_cfg i hexec).trans (State.beginStep_cfg s st)
  · exact State.beginStep_cfg s st

/-- R9: a configuration outside the legal ranges is refused. -/
theorem step_illegalConfig {s : State} (h : configLegal s.cfg = false) :
    step s = .refused .illegalConfig := by
  simp [step, h]

/-- Settles O8: what a step and every operation leave unchanged, operation by operation. -/
theorem parametersAreConstant : Obligations.ParametersAreConstant :=
  ⟨fun _ => step_illegalConfig, fun i _ _ => exec_cfg i, fun _ _ => step_cfg⟩

end Sys2Proof.Machine
end

/-! # What a host command does to the state

Every host command ends with an answer, and before it has at most one effect. `HostEffect` lists the effects
with the guards on their operands, their channel and its tip; the invariants of the state are then case
analyses over this list. -/

namespace Sys2Proof.Machine

/-- What a host command does to its own channel `x` before it answers (R200 to R205, R271), with its rule's
guards on the operands and on the channel. -/
inductive ChannelEffect (cfg : Config) (c : Chan) (x : Channel) : Instr → Channel → Prop where
  | switchOff :
      ChannelEffect cfg c x (.chSetstate c 0) ({ x with idleMs := 0 }.setState cfg x.offTarget)
  | switchOn (known : x.iron ≠ .unknown) (tip : x.tip ≠ tipNone)
      (state : ¬(x.state = .overload ∨ x.state = .noTip)) :
      ChannelEffect cfg c x (.chSetstate c 2) ({ x with idleMs := 0 }.setState cfg .active)
  | setTemp (v : BitVec 32) (range : v.toNat ≤ 32767) :
      ChannelEffect cfg c x (.chSettemp c v) ({ x with userTemp := v.setWidth 16 }.interact cfg)
  | nextPreset :
      ChannelEffect cfg c x (.chNextpreset c)
        ({ x with preset := nextIdx x.preset, userTemp := x.presets.get (nextIdx x.preset) }.interact cfg)
  | changeTip (slot : BitVec 32) (r : TipRecord) (range : slot.toNat < cfg.numTipSettings)
      (allocated : r.allocated = true) (known : x.iron ≠ .unknown) (fits : r.iron cfg = x.iron) :
      ChannelEffect cfg c x (.chChangetip c slot)
        (({ x with tip := BitVec.ofNat 8 slot.toNat
                   selectedTip := BitVec.ofNat 16 slot.toNat }.ctlLoad r).interact cfg)
  | interact : ChannelEffect cfg c x (.chInteract c) (x.interact cfg)
  | fixedDuty (d : BitVec 32) (range : d.toNat ≤ 100) (known : x.iron ≠ .unknown)
      (state : x.state = .fixedPower) :
      ChannelEffect cfg c x (.chFixedpwr c d)
        ({ x with fixedDuty := d.setWidth 7, idleMs := 0 }.dccSet cfg d.toNat)
  | fixedPower (d : BitVec 32) (range : d.toNat ≤ 100) (known : x.iron ≠ .unknown)
      (state : ¬(x.state = .overload ∨ x.state = .noTip)) :
      ChannelEffect cfg c x (.chFixedpwr c d)
        ({ x with fixedDuty := d.setWidth 7, idleMs := 0 }.setState cfg .fixedPower)
  | register (a : BitVec 16) (v : BitVec 32) (r : ChReg) (legal : (Reg.chan c r).legal cfg v = true) :
      ChannelEffect cfg c x (.regWr a v) (r.write v x)

/-- One calibration point of the tip channel `c` refers to replaced (R165, R166). -/
def State.setPoint (s : State) (c : Chan) (p : Idx3) (x : BitVec 16) (m : BitVec 32) : State :=
  s.setTip (s.chan c).tip.toNat ((s.tip (s.chan c).tip.toNat).setPoint p x m)

/-- What a host command does to the state before it answers (R165, R166, R200 to R205, R235 to R239, R253,
R254, R271). -/
inductive HostEffect (s : State) : Instr → State → Prop where
  | nothing (i : Instr) : HostEffect s i s
  | enable {i : Instr} (issued : i = .ctlEnable ∨ i = .ctlToggle) :
      HostEffect s i { s with ctlEnabled := true }
  | disable {i : Instr} (issued : i = .ctlDisable ∨ i = .ctlToggle) : HostEffect s i s.disable
  | chipTemp : HostEffect s .ctlChiptemp { s with chipTemp := s.chipTempIn }
  | tipMismatch (c : Chan) (slot : BitVec 32) (known : (s.chan c).iron ≠ .unknown)
      (mismatch : (s.tip slot.toNat).iron s.cfg ≠ (s.chan c).iron) :
      HostEffect s (.chChangetip c slot) (s.raiseFatal .tipMismatch)
  | channel {i : Instr} {c : Chan} {y : Channel} (effect : ChannelEffect s.cfg c (s.chan c) i y) :
      HostEffect s i (s.setChan c y)
  | calSave (c : Chan) (idx : BitVec 4) (p : Idx3) {v : Nat} (reading : (s.chan c).calReading s.cfg = some v) :
      HostEffect s (.calSave c idx) (s.setPoint c p (calTemp.get p) (natWord v))
  | calSet (c : Chan) (idx : BitVec 4) (p : Idx3) (x : BitVec 16) (m : BitVec 32)
      (range : x.toNat ≤ 32767 ∧ m.toNat ≤ 16777215) :
      HostEffect s (.calSet c idx x m) (s.setPoint c p x m)
  | alloc (n : BitVec 16) (range : n.toNat < s.cfg.numTipNames) :
      HostEffect s (.tipAlloc n) { s with tips := (allocTip s.cfg n s.tips).2 }
  | free (slot : BitVec 16) (range : slot.toNat < s.cfg.numTipSettings)
      (allocated : (s.tip slot.toNat).allocated = true) (unused : s.slotInUse slot.toNat = false) :
      HostEffect s (.tipFree slot)
        { s.setTip slot.toNat .free with ch0 := s.ch0.forgetSlot slot, ch1 := s.ch1.forgetSlot slot }
  | irqClear (v : BitVec 32) : HostEffect s (.regWr 0x0005 v) (s.irqClear v)
  | tipRegister (a : BitVec 16) (v : BitVec 32) (n : Nat) (r : TipReg)
      (legal : (Reg.tip n r).legal s.cfg v = true) (unused : s.nameInUse (.tip n r) = false) :
      HostEffect s (.regWr a v) (s.setTip n (r.write v (s.tip n)))

/-- `t` is `u` with a command's answer (R98): no more than the response and the rejection's flags differ. -/
def Answered (u t : State) : Prop :=
  t = { u with cmdErr := t.cmdErr, cmdCode := t.cmdCode, resp := t.resp, respOk := t.respOk }

/-- The command `i` leads from `s` to `t`: one effect, then the answer. -/
def CarriedOut (i : Instr) (s t : State) : Prop := ∃ u, HostEffect s i u ∧ Answered u t

theorem CarriedOut.rejected (i : Instr) (s : State) (e : RejectCode) : CarriedOut i s (s.reject e) :=
  ⟨s, .nothing i, rfl⟩

theorem CarriedOut.read (i : Instr) (s : State) (v : RegWord) : CarriedOut i s (s.accept v) :=
  ⟨s, .nothing i, rfl⟩

theorem HostEffect.carriedOut {i : Instr} {s u : State} (h : HostEffect s i u) (v : RegWord) :
    CarriedOut i s (u.accept v) :=
  ⟨u, h, rfl⟩

/-- A halted machine's answer carries a command out as well (R283). -/
theorem CarriedOut.hostCommand {i : Instr} {s : State} {body : State → State}
    (h : CarriedOut i s (body s)) : CarriedOut i s (s.hostCommand body) :=
  State.hostCommand_induct (fun _ => .rejected i s .halted) (fun _ => h)

theorem execRegRd_carriedOut {a : BitVec 16} {s t : State} (h : execRegRd a s = .next t) :
    CarriedOut (.regRd a) s t := by
  unfold execRegRd at h
  repeat' split at h
  all_goals cases h
  · exact .rejected _ s .addr
  · exact .rejected _ s .addr
  · exact .read _ s _

/-- The write of a legal value to a register that is not read-only (R271). -/
theorem State.regWrite_effect {s : State} {a : BitVec 16} {v : BitVec 32} {r : Reg}
    (hr : regAt s.cfg a = some r) (legal : r.legal s.cfg v = true) (unused : s.nameInUse r = false) :
    HostEffect s (.regWr a v) (s.regWrite v r) := by
  cases r with
  | irqClear =>
    obtain rfl := regAt_irqClear hr
    exact .irqClear v
  | chan c r => exact .channel (.register a v r legal)
  | tip n r => exact .tipRegister a v n r legal unused
  | ctlStatus | seqPtr | refreshCnt | reportCnt | chipTemp | seqQ => exact .nothing _

theorem execRegWr_carriedOut {a : BitVec 16} {v : BitVec 32} {s t : State} (h : execRegWr a v s = .next t) :
    CarriedOut (.regWr a v) s t := by
  cases h
  refine .hostCommand ?_
  split
  · exact .rejected _ s .addr
  next r hr =>
    split
    · exact .rejected _ s .ro
    split
    · exact .rejected _ s .range
    next legal =>
      split
      · exact .rejected _ s .inUse
      next unused =>
        exact (State.regWrite_effect hr (by simpa using legal) (by simpa using unused)).carriedOut 0

theorem execChSetstate_carriedOut {c : Chan} {idx : BitVec 4} {s t : State}
    (h : execChSetstate c idx s = .next t) : CarriedOut (.chSetstate c idx) s t := by
  cases h
  refine .hostCommand ?_
  dsimp only
  split
  · next h0 => subst h0; exact (HostEffect.channel .switchOff).carriedOut 0
  split
  · next h2 =>
    subst h2
    repeat' split
    · exact .rejected _ s .disabled
    · exact .rejected _ s .noIron
    · exact .rejected _ s .noTip
    · exact .rejected _ s .state
    next known tip state => exact (HostEffect.channel (.switchOn known tip state)).carriedOut 0
  · exact .rejected _ s .range

theorem execChChangetip_carriedOut {c : Chan} {slot : BitVec 32} {s t : State}
    (h : execChChangetip c slot s = .next t) : CarriedOut (.chChangetip c slot) s t := by
  cases h
  refine .hostCommand ?_
  dsimp only
  repeat' split
  · exact .rejected _ s .slot
  · exact .rejected _ s .noIron
  · next known mismatch => exact ⟨_, .tipMismatch c slot known mismatch, rfl⟩
  next hslot known fits =>
    simp only [not_or, Nat.not_le, Bool.not_eq_false] at hslot
    exact (HostEffect.channel
      (.changeTip slot _ hslot.1 hslot.2 known (not_ne_iff.1 fits))).carriedOut 0

theorem execChFixedpwr_carriedOut {c : Chan} {d : BitVec 32} {s t : State}
    (h : execChFixedpwr c d s = .next t) : CarriedOut (.chFixedpwr c d) s t := by
  cases h
  refine .hostCommand ?_
  dsimp only
  split
  · exact .rejected _ s .range
  split
  · exact .rejected _ s .disabled
  split
  · exact .rejected _ s .noIron
  split
  · exact .rejected _ s .state
  next range _ known state =>
    split
    · next fixed => exact (HostEffect.channel (.fixedDuty d (by omega) known fixed)).carriedOut 0
    · exact (HostEffect.channel (.fixedPower d (by omega) known state)).carriedOut 0

theorem execCalSave_carriedOut {c : Chan} {idx : BitVec 4} {s t : State} (h : execCalSave c idx s = .next t) :
    CarriedOut (.calSave c idx) s t := by
  cases h
  refine .hostCommand ?_
  dsimp only
  repeat' split
  · exact .rejected _ s .range
  · exact .rejected _ s .noTip
  · exact .read _ s 0
  next p _ _ _ v reading => exact (HostEffect.calSave c idx p reading).carriedOut 1

theorem execCalSet_carriedOut {c : Chan} {idx : BitVec 4} {x : BitVec 16} {m : BitVec 32} {s t : State}
    (h : execCalSet c idx x m s = .next t) : CarriedOut (.calSet c idx x m) s t := by
  cases h
  refine .hostCommand ?_
  dsimp only
  repeat' split
  · exact .rejected _ s .range
  · exact .rejected _ s .range
  · exact .rejected _ s .noTip
  next p _ range _ => exact (HostEffect.calSet c idx p x m (by omega)).carriedOut 0

theorem execTipAlloc_carriedOut {n : BitVec 16} {s t : State} (h : execTipAlloc n s = .next t) :
    CarriedOut (.tipAlloc n) s t := by
  cases h
  refine .hostCommand ?_
  dsimp only
  repeat' split
  · exact .rejected _ s .range
  · exact .rejected _ s .full
  next range _ _ _ => exact (HostEffect.alloc n (by omega)).carriedOut _

theorem execTipFree_carriedOut {slot : BitVec 16} {s t : State} (h : execTipFree slot s = .next t) :
    CarriedOut (.tipFree slot) s t := by
  cases h
  refine .hostCommand ?_
  dsimp only
  repeat' split
  · exact .rejected _ s .slot
  · exact .rejected _ s .inUse
  next hslot unused =>
    simp only [not_or, Nat.not_le, Bool.not_eq_false] at hslot
    exact (HostEffect.free slot hslot.1 hslot.2 (by simpa using unused)).carriedOut 0

/-- Everything a host command can do (R94, R98): one effect, then the answer. -/
theorem exec_host_carriedOut {i : Instr} {s t : State} (hi : i.isHost = true) (h : exec i s = .next t) :
    CarriedOut i s t := by
  cases i with
  | ctlEnable => cases h; exact .hostCommand ((HostEffect.enable (.inl rfl)).carriedOut 0)
  | ctlDisable => cases h; exact .hostCommand ((HostEffect.disable (.inl rfl)).carriedOut 0)
  | ctlToggle =>
    cases h
    refine .hostCommand ?_
    split
    · exact (HostEffect.disable (.inr rfl)).carriedOut 0
    · exact (HostEffect.enable (.inr rfl)).carriedOut 1
  | ctlChiptemp => cases h; exact .hostCommand (HostEffect.chipTemp.carriedOut _)
  | chSetstate => exact execChSetstate_carriedOut h
  | chSettemp c v =>
    cases h
    refine .hostCommand ?_
    split
    · exact .rejected _ s .range
    · exact (HostEffect.channel (.setTemp v (by omega))).carriedOut 0
  | chNextpreset => cases h; exact .hostCommand ((HostEffect.channel .nextPreset).carriedOut _)
  | chChangetip => exact execChChangetip_carriedOut h
  | chInteract => cases h; exact .hostCommand ((HostEffect.channel .interact).carriedOut 0)
  | chFixedpwr => exact execChFixedpwr_carriedOut h
  | calSave => exact execCalSave_carriedOut h
  | calSet => exact execCalSet_carriedOut h
  | tipAlloc => exact execTipAlloc_carriedOut h
  | tipFree => exact execTipFree_carriedOut h
  | regRd => exact execRegRd_carriedOut h
  | regWr => exact execRegWr_carriedOut h
  | chGetstate | chGetcur | chGettgt | chGetpwr | chIsmod | calInst =>
    cases h; exact .hostCommand (.read _ s _)
  | calGett | calGetm =>
    cases h
    refine .hostCommand ?_
    repeat' split
    · exact .rejected _ s .range
    · exact .rejected _ s .noTip
    · exact .read _ s _
  | tipFind =>
    cases h
    refine .hostCommand ?_
    split
    · exact .rejected _ s .range
    · exact .read _ s _
  | _ => cases hi

end Sys2Proof.Machine

/-! # What an event does to the state, and what every step keeps -/

namespace Sys2Proof.Machine

/-! The channels -/

/-- R224: a channel's part of the queue moves its identification counter alone. -/
theorem Channel.buildPart_frame (cfg : Config) (ch : Channel) :
    (ch.buildPart cfg).2 = { ch with identCnt := (ch.buildPart cfg).2.identCnt } := by
  unfold Channel.buildPart
  dsimp only
  repeat' split
  all_goals rfl

/-- `y` is the channel `x` with no more changed than a turn of the control update may write (R228). -/
def TurnWrites (x y : Channel) : Prop :=
  y = { x with
    state := y.state, ctlEn := y.ctlEn, iAcc := y.iAcc, tbhPrev := y.tbhPrev, haveIn := y.haveIn
    haveErr := y.haveErr, duty := y.duty, on := y.on, drive := y.drive, voltSel := y.voltSel
    led := y.led, idleMs := y.idleMs, curTemp := y.curTemp, curOut := y.curOut, lastIn := y.lastIn
    lastErr := y.lastErr, acc := y.acc, pwr := y.pwr }

theorem TurnWrites.trans {x y z : Channel} (hxy : TurnWrites x y) (hyz : TurnWrites y z) : TurnWrites x z := by
  unfold TurnWrites at hxy hyz ⊢
  rw [hyz, hxy]

theorem TurnWrites.setState (cfg : Config) (tgt : SetTarget) (x : Channel) :
    TurnWrites x (x.setState cfg tgt) := by
  unfold TurnWrites
  rw [Channel.setState_frame]

theorem TurnWrites.idle (cfg : Config) (ms : Nat) (x : Channel) : TurnWrites x (x.idle cfg ms) := by
  unfold TurnWrites
  rw [Channel.idle_frame]

theorem TurnWrites.curTemp (v : BitVec 16) (x : Channel) : TurnWrites x { x with curTemp := v } := rfl

theorem TurnWrites.measUpd (cfg : Config) (tips : List TipRecord) (target : Int) (x : Channel) :
    TurnWrites x (x.measUpd cfg tips target) := by
  unfold TurnWrites
  rw [Channel.measUpd_frame]

theorem TurnWrites.updDrive (cfg : Config) (x : Channel) : TurnWrites x (x.updDrive cfg) := by
  unfold TurnWrites
  rw [Channel.updDrive_frame]

/-- R228: a channel's turn, line by line. -/
theorem TurnWrites.update (cfg : Config) (tips : List TipRecord) (x : Channel) :
    TurnWrites x (x.update cfg tips) := by
  unfold Channel.update
  dsimp only
  refine (TurnWrites.idle cfg cfg.idleTickMs x).trans ?_
  generalize x.idle cfg cfg.idleTickMs = y
  have noTip : TurnWrites y
      (if y.state.isHeating = true ∧ y.tipPresent = false then y.setState cfg .noTip else y) := by
    split
    · exact .setState cfg .noTip y
    · rfl
  exact ((noTip.trans (.curTemp _ _)).trans (.measUpd cfg tips _ _)).trans (.updDrive cfg _)

/-- What each part of an identification keeps (R191, R194, R155, R195, R131). -/
structure KeptByIdentification (cfg : Config) (P : Channel → Prop) : Prop where
  ohms : ∀ (x : Channel) (e : BitVec 32), P x → P { x with idOhms := e }
  state : ∀ (x : Channel) (tgt : SetTarget), P x → P (x.setState cfg tgt)
  pins : ∀ x : Channel, P x → P { x with voltSel := 0, led := false }
  block : ∀ (x : Channel) (t : Iron) (tip : BitVec 8), P x → P ({ x with iron := t, tip := tip }.measReset cfg)
  tip : ∀ (x : Channel) (tip : BitVec 8) (sel : BitVec 16), P x → P { x with tip := tip, selectedTip := sel }
  gains : ∀ (x : Channel) (r : TipRecord), P x → P (x.ctlLoad r)

theorem KeptByIdentification.dropIron {cfg : Config} {P : Channel → Prop} (K : KeptByIdentification cfg P)
    {x : Channel} (hx : P x) : P (x.dropIron cfg) := by
  unfold Channel.dropIron
  split
  · exact K.block _ .unknown tipNone (K.pins x hx)
  · exact K.block _ .unknown tipNone (K.state x .noTool hx)

theorem KeptByIdentification.takeIron {cfg : Config} {P : Channel → Prop} (K : KeptByIdentification cfg P)
    {x : Channel} (hx : P x) (tips : List TipRecord) (t : Iron) : P (x.takeIron cfg tips t).1 := by
  have hsel : P (({ x with iron := t }.measReset cfg).tipSel cfg tips).1 := by
    rw [Channel.tipSel_frame]
    exact K.tip _ _ _ (K.block x t x.tip hx)
  unfold Channel.takeIron
  generalize Channel.tipSel cfg tips ({ x with iron := t }.measReset cfg) = r at hsel ⊢
  have hload : P (if r.1.tip = tipNone then r.1 else r.1.ctlLoad (tipAt r.2 r.1.tip.toNat)) := by
    split
    · exact hsel
    · exact K.gains _ _ hsel
  dsimp only
  generalize (if r.1.tip = tipNone then r.1 else r.1.ctlLoad (tipAt r.2 r.1.tip.toNat)) = y at hload ⊢
  split
  · exact K.state y .off hload
  · exact hload

/-- What the parts keep, an iron change keeps (R194). -/
theorem KeptByIdentification.setIron {cfg : Config} {P : Channel → Prop} (K : KeptByIdentification cfg P)
    {x : Channel} (hx : P x) (tips : List TipRecord) (t : Iron) : P (x.setIron cfg tips t).1 := by
  have hdropped : P (if x.iron = .unknown then x else x.dropIron cfg) := by
    split
    · exact hx
    · exact K.dropIron hx
  unfold Channel.setIron
  split
  · dsimp only
    split
    · exact K.state x .noTool hx
    · exact hx
  dsimp only
  split
  · exact hdropped
  · exact K.takeIron hdropped tips t

theorem KeptByIdentification.ident {cfg : Config} {P : Channel → Prop} (K : KeptByIdentification cfg P)
    {x : Channel} (hx : P x) (tips : List TipRecord) (raw : Nat) : P (x.ident cfg tips raw).1 := by
  unfold Channel.ident
  exact K.setIron (K.ohms x _ hx) tips _

/-! Samples -/

/-- What a sample of channel `c` does when it raises no trap (R189): dropped, taken as an identification, or
pushed into the average of its slot. -/
inductive SampleTaken (c : Chan) (raw : BitVec 16) (s : State) : State → Prop where
  | dropped (running : (s.chan c).isRunning = true) : SampleTaken c raw s s
  | identified (stopped : (s.chan c).isRunning = false) :
      SampleTaken c raw s (s.putChannel c ((s.chan c).ident s.cfg s.tips raw.toNat))
  | averaged (slot : Slot) : SampleTaken c raw s (s.updChan c (Channel.takeSample s.cfg slot raw))

/-- Everything CH.PROC can do (R189, R157). -/
theorem State.chProc_cases (c : Chan) (m : MuxCode) (raw : BitVec 16) (s : State) :
    (∃ u, SampleTaken c raw s u ∧ s.chProc c m raw = .done u)
      ∨ s.chProc c m raw = .trapped (s.raiseFatal .measMux) := by
  unfold State.chProc State.measProc
  repeat' split
  · next running => exact .inl ⟨_, .dropped running, rfl⟩
  · next stopped => exact .inl ⟨_, .identified (by simpa using stopped), rfl⟩
  · exact .inr rfl
  · next slot _ => exact .inl ⟨_, .averaged slot, rfl⟩

theorem SampleTaken.frame {c : Chan} {raw : BitVec 16} {s u : State} (h : SampleTaken c raw s u) :
    u = { s with ch0 := u.ch0, ch1 := u.ch1, tips := u.tips } := by
  cases h with
  | dropped => rfl
  | identified | averaged => cases c <;> rfl

/-- Everything EV.ADC can do (R225, R226). -/
theorem State.evAdc_cases (tag : MuxCode) (raw : BitVec 16) (s : State) :
    (s.fatal = true ∧ s.evAdc tag raw = s)
      ∨ s.evAdc tag raw = s.raiseFatal .adcDesync
      ∨ (s.fatal = false ∧ s.adcBusy = true ∧ tag = s.qAt s.qIdx.toNat
        ∧ (s.evAdc tag raw = { s with adcBusy := false }.raiseFatal .measMux
          ∨ ∃ u, SampleTaken (chanOf tag) raw { s with adcBusy := false } u
              ∧ s.evAdc tag raw = u.adcAdvance)) := by
  unfold State.evAdc
  split
  · next halted => exact .inl ⟨halted, rfl⟩
  next running =>
    split
    · exact .inr (.inl rfl)
    next expected =>
      simp only [not_or, Bool.not_eq_false, not_ne_iff] at expected
      refine .inr (.inr ⟨by simpa using running, expected.1, expected.2, ?_⟩)
      rcases State.chProc_cases (chanOf tag) (muxStrip tag) raw { s with adcBusy := false } with
        ⟨u, hu, hproc⟩ | hproc <;> rw [hproc]
      · exact .inr ⟨u, hu, rfl⟩
      · exact .inl rfl

theorem execEvAdc_eq {tag : BitVec 8} {raw : BitVec 16} {s t : State} (h : exec (.evAdc tag raw) s = .next t) :
    t = s.evAdc tag raw := by
  change execEvAdc tag raw s = .next t at h
  unfold execEvAdc at h
  split at h <;> cases h
  rfl

/-! Steps -/

/-- An operation that can be issued is a host command or one of the five events (R94, R96). -/
theorem isHost_or_event {i : Instr} (h : i.issuable = true) :
    i.isHost = true ∨ i = .evRst ∨ i = .evZc ∨ i = .evTmr ∨ (∃ tag raw, i = .evAdc tag raw) ∨ i = .evOc := by
  cases i with
  | evRst | evZc | evTmr | evOc => simp
  | evAdc tag raw => exact .inr (.inr (.inr (.inr (.inl ⟨tag, raw, rfl⟩))))
  | _ => exact .inl h

/-- What every operation issued from outside keeps under a legal configuration, the five events and the
effects of the host commands taken one by one. -/
structure KeptByOperations (P : State → Prop) : Prop where
  begun : ∀ (s : State) (p : Pending), P s → P { s.dropPulses with pend := p }
  answered : ∀ u t : State, Answered u t → P u → P t
  host : ∀ (i : Instr) (s u : State), CfgFacts s.cfg → P s → HostEffect s i u → P u
  rst : ∀ s : State, CfgFacts s.cfg → P s → P (State.resetWith s.cfg s.chipTempIn s.rst)
  zc : ∀ s : State, CfgFacts s.cfg → P s → P s.evZc
  tmr : ∀ s : State, CfgFacts s.cfg → P s → P s.evTmr
  adc : ∀ (s : State) (tag : MuxCode) (raw : BitVec 16), CfgFacts s.cfg → P s → P (s.evAdc tag raw)
  oc : ∀ s : State, CfgFacts s.cfg → P s → P s.evOc

/-- What the operations keep, every step keeps. -/
theorem KeptByOperations.step {P : State → Prop} (K : KeptByOperations P) {s t : State} (hs : P s)
    (h : step s = .next t) : P t := by
  obtain ⟨hcfg, rfl | ⟨st, -, ⟨i, -, hi, hexec⟩ | rfl⟩⟩ := step_cases h
  · exact K.begun s s.pend hs
  · have hbegun : P (s.beginStep st) := K.begun s _ hs
    have facts : CfgFacts (s.beginStep st).cfg := configLegal_facts hcfg
    rcases isHost_or_event hi with hhost | rfl | rfl | rfl | ⟨tag, raw, rfl⟩ | rfl
    · obtain ⟨u, heffect, hanswer⟩ := exec_host_carriedOut hhost hexec
      exact K.answered u t hanswer (K.host i _ u facts hbegun heffect)
    · cases hexec; exact K.rst _ facts hbegun
    · cases hexec; exact K.zc _ facts hbegun
    · cases hexec; exact K.tmr _ facts hbegun
    · rw [execEvAdc_eq hexec]; exact K.adc _ tag raw facts hbegun
    · cases hexec; exact K.oc _ facts hbegun
  · exact K.answered (s.beginStep st) _ rfl (K.begun s _ hs)

end Sys2Proof.Machine

/-! # The queue and the zero-crossing counters (R23, R24, R221, R231) -/

namespace Sys2Proof.Machine

/-- The invariants of the queue and of the counters. -/
def QueueInv (s : State) : Prop := SchedulerInv s ∧ CountersInv s

/-- `t` has the scheduler's elements of `s`; it may have trapped. -/
def SameScheduler (s t : State) : Prop :=
  t = { t with
    cfg := s.cfg, q := s.q, qLen := s.qLen, qIdx := s.qIdx, adcBusy := s.adcBusy
    timerArmed := s.timerArmed, refreshCnt := s.refreshCnt, reportCnt := s.reportCnt }
    ∧ (t.fatal = false → s.fatal = false)

theorem QueueInv.of_same {s t : State} (h : SameScheduler s t) (hs : QueueInv s) : QueueInv t := by
  obtain ⟨heq, hfatal⟩ := h
  obtain ⟨⟨hidx, hlen, hbusy, harmed, hend, hidle⟩, hcounters⟩ := hs
  rw [heq]
  exact ⟨⟨hidx, hlen, hbusy, harmed, hend, fun hb hf => hidle hb (hfatal hf)⟩, hcounters⟩

/-! Host commands -/

/-- No effect of a host command reaches the scheduler. -/
theorem HostEffect.sameScheduler {i : Instr} {s u : State} (h : HostEffect s i u) : SameScheduler s u := by
  cases h with
  | @channel _ c y effect => cases c <;> exact ⟨rfl, id⟩
  | tipMismatch => exact ⟨rfl, by simp⟩
  | _ => exact ⟨rfl, id⟩

theorem Answered.sameScheduler {u t : State} (h : Answered u t) : SameScheduler u t := by
  unfold Answered at h
  rw [h]
  exact ⟨rfl, id⟩

/-! Reset and zero crossings -/

theorem resetWith_queueInv {cfg : Config} (F : CfgFacts cfg) (v : BitVec 16) (b : Bool) :
    QueueInv (State.resetWith cfg v b) := by
  have sentinel : ∀ i < 8, (State.resetWith cfg v b).qAt i = muxEnd := by
    intro i hi
    interval_cases i <;> rfl
  exact ⟨⟨le_rfl, Nat.zero_le _, nofun, nofun, fun i _ hi => sentinel i hi, fun _ _ => rfl⟩,
    F.refresh.1, F.report.1⟩

/-- R221, R231: a counter that reaches its interval starts again at 0. -/
theorem tickCounter_lt {interval : Nat} (h : 1 ≤ interval) (n : BitVec 16) :
    (tickCounter interval n).1.toNat < interval := by
  unfold tickCounter
  dsimp only
  split
  · exact h
  · rw [BitVec.toNat_ofNat]
    omega

theorem State.zcAlways_queueInv {s : State} (F : CfgFacts s.cfg) (hs : SchedulerInv s) :
    QueueInv s.zcAlways :=
  ⟨hs, tickCounter_lt F.refresh.1 s.refreshCnt, tickCounter_lt F.report.1 s.reportCnt⟩

/-- R221: the timer is armed only while no conversion is in flight. -/
theorem State.zcArm_queueInv {s : State} (hs : QueueInv s) : QueueInv s.zcArm := by
  unfold State.zcArm
  split
  · exact hs
  split
  · exact hs.of_same ⟨rfl, id⟩
  · next free =>
    obtain ⟨⟨hidx, hlen, hbusy, harmed, hend, hidle⟩, hcounters⟩ := hs
    simp only [not_or, Bool.not_eq_true] at free
    exact ⟨⟨hidx, hlen, hbusy, fun _ => free.2, hend, hidle⟩, hcounters⟩

theorem State.evZc_queueInv {s : State} (F : CfgFacts s.cfg) (hs : QueueInv s) : QueueInv s.evZc := by
  unfold State.evZc
  split
  · exact hs
  · exact State.zcArm_queueInv (State.zcAlways_queueInv F hs.1)

/-! The sequencer -/

/-- R105: a stored sequence holds at most four codes. -/
theorem seqCodes_length_le (q : StoredSeq) : (seqCodes q).length ≤ 4 := (List.takeWhile_sublist _).length_le

/-- R224: a channel asks for at most four conversions. -/
theorem Channel.buildPart_length_le (cfg : Config) (ch : Channel) : (ch.buildPart cfg).1.length ≤ 4 := by
  have hseq : (measSeq cfg ch).length ≤ 4 := seqCodes_length_le _
  unfold Channel.buildPart
  dsimp only
  repeat' split
  all_goals simp [hseq]

/-- The tags SEQ.BUILD queues (R224). -/
def State.builtTags (s : State) : List MuxCode :=
  ((s.ch0.buildPart s.cfg).1.map fun m => muxTag m .ch0) ++ (s.ch1.buildPart s.cfg).1.map fun m => muxTag m .ch1

theorem State.builtTags_length_le (s : State) : s.builtTags.length ≤ 8 := by
  have h0 := Channel.buildPart_length_le s.cfg s.ch0
  have h1 := Channel.buildPart_length_le s.cfg s.ch1
  simp only [State.builtTags, List.length_append, List.length_map]
  omega

theorem State.seqBuild_qLen (s : State) : s.seqBuild.qLen.toNat = s.builtTags.length := by
  have h := s.builtTags_length_le
  change (BitVec.ofNat 4 s.builtTags.length).toNat = _
  rw [BitVec.toNat_ofNat]
  omega

theorem State.seqBuild_qAt (s : State) {i : Nat} (hi : i < 8) :
    s.seqBuild.qAt i = s.builtTags.getD i muxEnd := by
  change (((queueOf s.builtTags).toList[i]?).getD (Config.absentTag i)) = _
  generalize s.builtTags = l
  interval_cases i <;> rfl

/-- R223, R224: building the queue while nothing is in flight leaves the pointer at its start and the sentinel
behind the tags. -/
theorem State.seqBuild_queueInv {s : State} (hs : QueueInv s) (hbusy : s.adcBusy = false) :
    QueueInv s.seqBuild := by
  obtain ⟨⟨-, -, -, -, -, -⟩, hcounters⟩ := hs
  refine ⟨⟨Nat.zero_le _, ?_, ?_, fun _ => hbusy, ?_, fun _ _ => rfl⟩, hcounters⟩
  · rw [State.seqBuild_qLen]
    exact s.builtTags_length_le
  · intro h
    exact absurd (h.symm.trans hbusy) nofun
  · intro i hlen hi
    rw [State.seqBuild_qLen] at hlen
    rw [State.seqBuild_qAt s hi, List.getD_eq_default _ _ hlen]

/-- R227: a conversion is started with the pointer inside the queue. -/
theorem State.seqNext_queueInv {s : State} (hs : QueueInv s) (hidx : s.qIdx.toNat < s.qLen.toNat)
    (harmed : s.timerArmed = false) : QueueInv s.seqNext := by
  obtain ⟨⟨-, hlen, -, -, hend, -⟩, hcounters⟩ := hs
  exact ⟨⟨hidx.le, hlen, fun _ => hidx, fun h => absurd (h.symm.trans harmed) nofun, hend, nofun⟩, hcounters⟩

/-- R222: an unexpected timer pulse does nothing; an expected one builds the queue and starts its first
conversion, or updates at once when it is empty. -/
theorem State.evTmr_queueInv {s : State} (hs : QueueInv s) : QueueInv s.evTmr := by
  unfold State.evTmr
  split
  · exact hs
  split
  · exact hs
  next armed =>
    simp only [Bool.not_eq_false] at armed
    obtain ⟨⟨hidx, hlen, hbusy, harmed, hend, hidle⟩, hcounters⟩ := hs
    have disarmed : QueueInv { s with timerArmed := false } :=
      ⟨⟨hidx, hlen, hbusy, nofun, hend, hidle⟩, hcounters⟩
    have built := State.seqBuild_queueInv disarmed (harmed armed)
    dsimp only
    split
    · exact built.of_same ⟨rfl, id⟩
    next filled =>
      exact State.seqNext_queueInv built (by
        have : State.qIdx (State.seqBuild { s with timerArmed := false }) = 0 := rfl
        rw [this]
        exact Nat.pos_of_ne_zero fun h => filled (BitVec.eq_of_toNat_eq h)) rfl

/-! Conversions -/

/-- The queue with a conversion just completed and not yet followed up (R226). -/
def Completed (s : State) : Prop :=
  s.qIdx.toNat < s.qLen.toNat ∧ s.qLen.toNat ≤ 8 ∧ s.adcBusy = false ∧ s.timerArmed = false
    ∧ (∀ i, s.qLen.toNat ≤ i → i < 8 → s.qAt i = muxEnd) ∧ CountersInv s

theorem QueueInv.completed {s : State} (hs : QueueInv s) (busy : s.adcBusy = true) :
    Completed { s with adcBusy := false } := by
  obtain ⟨⟨hidx, hlen, hbusy, harmed, hend, hidle⟩, hcounters⟩ := hs
  refine ⟨hbusy busy, hlen, rfl, ?_, hend, hcounters⟩
  by_contra armed
  simp only [Bool.not_eq_false] at armed
  exact absurd (busy.symm.trans (harmed armed)) nofun

theorem SampleTaken.completed {c : Chan} {raw : BitVec 16} {s u : State} (h : SampleTaken c raw s u)
    (hs : Completed s) : Completed u := by
  have heq := h.frame
  rw [heq]
  exact hs

/-- R226: the pointer moves to the next entry, or back to 0 when the queue has drained. -/
theorem Completed.adcAdvance {s : State} (hs : Completed s) : QueueInv s.adcAdvance := by
  obtain ⟨hidx, hlen, hbusy, harmed, hend, hcounters⟩ := hs
  have hnext : (s.qIdx + 1).toNat = s.qIdx.toNat + 1 := by
    rw [BitVec.toNat_add]
    exact Nat.mod_eq_of_lt (by change s.qIdx.toNat + 1 < 16; omega)
  unfold State.adcAdvance
  dsimp only
  split
  · next more =>
    exact ⟨⟨more.le, hlen, fun _ => more, fun h => absurd (h.symm.trans harmed) nofun, hend, nofun⟩, hcounters⟩
  · exact ⟨⟨Nat.zero_le _, hlen, fun h => absurd (h.symm.trans hbusy) nofun, fun _ => hbusy, hend, fun _ _ => rfl⟩,
      hcounters⟩

/-- R226 corner 4: a trap while a sample is processed freezes the pointer. -/
theorem Completed.raiseFatal {s : State} (hs : Completed s) (e : FatalCause) : QueueInv (s.raiseFatal e) := by
  obtain ⟨hidx, hlen, hbusy, harmed, hend, hcounters⟩ := hs
  exact ⟨⟨hidx.le, hlen, fun h => absurd (h.symm.trans hbusy) nofun, fun _ => hbusy, hend, nofun⟩, hcounters⟩

theorem State.evAdc_queueInv {s : State} (tag : MuxCode) (raw : BitVec 16) (hs : QueueInv s) :
    QueueInv (s.evAdc tag raw) := by
  rcases State.evAdc_cases tag raw s with ⟨-, h⟩ | h | ⟨-, busy, -, h | ⟨u, taken, h⟩⟩ <;> rw [h]
  · exact hs
  · exact hs.of_same ⟨rfl, nofun⟩
  · exact (hs.completed busy).raiseFatal .measMux
  · exact (taken.completed (hs.completed busy)).adcAdvance

theorem State.evOc_queueInv {s : State} (hs : QueueInv s) : QueueInv s.evOc := by
  unfold State.evOc
  split
  · exact hs
  · exact hs.of_same ⟨rfl, id⟩

/-! Every step -/

theorem queueInv_kept : KeptByOperations QueueInv where
  begun _ _ hs := hs.of_same ⟨rfl, id⟩
  answered _ _ h hu := hu.of_same h.sameScheduler
  host _ _ _ _ hs h := hs.of_same h.sameScheduler
  rst _ F _ := resetWith_queueInv F _ _
  zc _ F hs := State.evZc_queueInv F hs
  tmr _ _ hs := State.evTmr_queueInv hs
  adc _ tag raw _ hs := State.evAdc_queueInv tag raw hs
  oc _ _ hs := State.evOc_queueInv hs

/-- Settles O11: the queue's and the counters' invariant is kept by every effect and every event. -/
theorem queueInvariantKept : Obligations.QueueInvariantKept :=
  fun _ _ hs hc h => queueInv_kept.step ⟨hs, hc⟩ h

end Sys2Proof.Machine

/-! # The moving averages (R28)

A push keeps an average in its form, and every operation leaves an average alone, empties it or pushes a
sample into it. -/

namespace Sys2Proof.Machine

/-! Sums of a buffer -/

theorem sum_set (l : List (BitVec 32)) {i : Nat} (v : BitVec 32) (h : i < l.length) :
    (l.set i v).sum = l.sum - l.getD i 0 + v := by
  rw [List.sum_set', dif_pos h, List.getD_eq_getElem _ _ h]
  ring

theorem toNat_sum (l : List (BitVec 32)) : l.sum.toNat = (l.map BitVec.toNat).sum % 2 ^ 32 := by
  induction l with
  | nil => rfl
  | cons v l ih => rw [List.sum_cons, List.map_cons, List.sum_cons, BitVec.toNat_add, ih, Nat.add_mod_mod]

/-! The form of an average -/

theorem AverageOk.empty {n : Nat} (h : 1 ≤ n) : AverageOk n (.empty n) := by
  refine ⟨List.length_replicate, Nat.zero_le _, h, fun _ => ⟨rfl, fun i _ => ?_⟩, ?_⟩
  · simp only [MovingAvg.empty, List.getD_eq_getElem?_getD, List.getElem?_replicate]
    split <;> rfl
  · simp [MovingAvg.empty]

/-- R28: a push overwrites the oldest entry of a full average and the first unused one otherwise. -/
theorem AverageOk.push {n : Nat} {m : MovingAvg} (h : AverageOk n m) (v : BitVec 32) :
    AverageOk n (m.push v) := by
  obtain ⟨hlen, hcnt, hidx, hopen, hsum⟩ := h
  have hbuf : m.idx < m.buf.length := hlen ▸ hidx
  by_cases full : m.cnt = n
  · rw [MovingAvg.push_full v (full.trans hlen.symm)]
    refine ⟨by simpa using hlen, hcnt, ?_, fun h => absurd full h.ne, ?_⟩
    · exact (Nat.mod_lt _ (by omega)).trans_eq hlen
    · rw [sum_set _ v hbuf, hsum]
  · obtain ⟨hnext, hzero⟩ := hopen (by omega)
    rw [MovingAvg.push_notFull v (hlen ▸ full)]
    refine ⟨by simpa using hlen, by dsimp only; omega, ?_, fun hmore => ⟨?_, fun i hi => ?_⟩, ?_⟩
    · exact (Nat.mod_lt _ (by omega)).trans_eq hlen
    · dsimp only at hmore ⊢
      rw [hnext, hlen, Nat.mod_eq_of_lt hmore]
    · dsimp only at hi ⊢
      rw [List.getD_eq_getElem?_getD, List.getElem?_set_ne (by omega), ← List.getD_eq_getElem?_getD]
      exact hzero i (by omega)
    · rw [sum_set _ v hbuf, hnext, hzero m.cnt le_rfl, hsum, sub_zero]

/-! The window of an average -/

/-- The average `m` holds the history `l` of its samples: entry `k mod n` is sample `k` for each of the last
`n` samples, and the sum is theirs. -/
structure HoldsHistory (n : Nat) (l : List (BitVec 32)) (m : MovingAvg) : Prop where
  length : m.buf.length = n
  cnt : m.cnt = min l.length n
  idx : m.idx = l.length % n
  entry : ∀ k, l.length - n ≤ k → k < l.length → m.buf[k % n]? = l[k]?
  sum : m.sum = (l.drop (l.length - n)).sum

theorem HoldsHistory.empty (n : Nat) : HoldsHistory n [] (.empty n) where
  length := List.length_replicate
  cnt := (Nat.zero_min n).symm
  idx := (Nat.zero_mod n).symm
  entry _ _ h := absurd h (Nat.not_lt_zero _)
  sum := by simp [MovingAvg.empty]

/-- Two of the last `n` samples have different entries. -/
theorem mod_ne_of_window {n k len : Nat} (hk : k < len) (hwindow : len + 1 - n ≤ k) : k % n ≠ len % n := by
  intro h
  have hdvd : n ∣ len - k := (Nat.modEq_iff_dvd' hk.le).1 h
  have := Nat.le_of_dvd (by omega) hdvd
  omega

/-- What a push leaves of the window's entries: the new sample in place of the oldest. -/
theorem HoldsHistory.entry_push {n : Nat} {l : List (BitVec 32)} {m : MovingAvg} (h : HoldsHistory n l m)
    (hn : 0 < n) (v : BitVec 32) (k : Nat) (hwindow : (l ++ [v]).length - n ≤ k) (hk : k < (l ++ [v]).length) :
    (m.buf.set m.idx v)[k % n]? = (l ++ [v])[k]? := by
  simp only [List.length_append, List.length_singleton] at hwindow hk
  rw [h.idx]
  rcases Nat.lt_succ_iff_lt_or_eq.1 hk with hold | rfl
  · rw [List.getElem?_set_ne (mod_ne_of_window hold hwindow).symm, List.getElem?_append_left hold]
    exact h.entry k (by omega) hold
  · rw [List.getElem?_set_self ((Nat.mod_lt _ hn).trans_eq h.length.symm), List.getElem?_concat_length]

/-- The sum after a push into a full average: the oldest sample leaves the window. -/
theorem HoldsHistory.sum_push_full {n : Nat} {l : List (BitVec 32)} {m : MovingAvg} (h : HoldsHistory n l m)
    (hn : 0 < n) (hfull : n ≤ l.length) (v : BitVec 32) :
    m.sum - m.buf.getD m.idx 0 + v = ((l ++ [v]).drop ((l ++ [v]).length - n)).sum := by
  have holdest : l.length - n < l.length := by omega
  have hidx : m.idx = (l.length - n) % n := by
    rw [h.idx]
    exact ((Nat.modEq_iff_dvd' (by omega)).2 ⟨1, by omega⟩ : l.length - n ≡ l.length [MOD n]).symm
  have hentry : m.buf.getD m.idx 0 = l[l.length - n] := by
    rw [List.getD_eq_getElem?_getD, hidx, h.entry _ le_rfl holdest, List.getElem?_eq_getElem holdest]
    rfl
  have hdrop : (l ++ [v]).length - n = l.length - n + 1 := by
    rw [List.length_append, List.length_singleton]
    omega
  rw [hentry, h.sum, hdrop, List.drop_append_of_le_length holdest, List.drop_eq_getElem_cons holdest,
    List.sum_append, List.sum_cons, List.sum_singleton]
  ring

theorem HoldsHistory.push {n : Nat} {l : List (BitVec 32)} {m : MovingAvg} (h : HoldsHistory n l m)
    (hn : 0 < n) (v : BitVec 32) : HoldsHistory n (l ++ [v]) (m.push v) := by
  have hcnt := h.cnt
  have hlen : (l ++ [v]).length = l.length + 1 := by simp
  by_cases hfull : n ≤ l.length
  · rw [MovingAvg.push_full v (by rw [h.length]; omega)]
    exact
      { length := by simpa using h.length
        cnt := by dsimp only; omega
        idx := by dsimp only; rw [h.idx, h.length, hlen, Nat.mod_add_mod]
        entry := h.entry_push hn v
        sum := h.sum_push_full hn hfull v }
  · rw [MovingAvg.push_notFull v (by rw [h.length]; omega)]
    exact
      { length := by simpa using h.length
        cnt := by dsimp only; omega
        idx := by dsimp only; rw [h.idx, h.length, hlen, Nat.mod_add_mod]
        entry := h.entry_push hn v
        sum := by
          have hall : l.length - n = 0 := by omega
          have hall' : l.length + 1 - n = 0 := by omega
          rw [h.sum, hall, hlen, hall', List.drop_zero, List.drop_zero, List.sum_append, List.sum_singleton] }

theorem pushAll_holdsHistory {n : Nat} (hn : 0 < n) (l : List (BitVec 32)) : HoldsHistory n l (pushAll n l) := by
  induction l using List.reverseRecOn with
  | nil => exact .empty n
  | append_singleton l v ih =>
    unfold pushAll at ih ⊢
    rw [List.foldl_append]
    exact ih.push hn v

/-- R28: the average is the mean, rounded down, of the samples whose sum it holds. -/
theorem HoldsHistory.avg {n : Nat} {l : List (BitVec 32)} {m : MovingAvg} (h : HoldsHistory n l m)
    (hfits : ((l.drop (l.length - n)).map BitVec.toNat).sum < 2 ^ 32) :
    m.avg = ((l.drop (l.length - n)).map BitVec.toNat).sum / (l.drop (l.length - n)).length := by
  have hcnt : m.cnt = (l.drop (l.length - n)).length := by
    rw [h.cnt, List.length_drop]
    omega
  unfold MovingAvg.avg
  rw [hcnt, h.sum, toNat_sum, Nat.mod_eq_of_lt hfits]
  split
  · next hnone => rw [hnone, Nat.div_zero]
  · rfl

/-- Settles O29, by induction over the pushes. -/
theorem averageIsTheMeanOfTheWindow : Obligations.AverageIsTheMeanOfTheWindow := by
  intro n l hn
  have h := pushAll_holdsHistory hn l
  exact ⟨h.cnt, h.sum, h.avg⟩

/-! The averages of a channel -/

theorem AveragesInv.reset {cfg : Config} (F : CfgFacts cfg) : AveragesInv cfg (Channel.reset cfg) :=
  ⟨.empty F.avg.1, .empty F.avg.1, .empty F.avg.1, .empty F.pavg.1⟩

theorem AveragesInv.measReset {cfg : Config} (F : CfgFacts cfg) (ch : Channel) :
    AveragesInv cfg (ch.measReset cfg) :=
  ⟨.empty F.avg.1, .empty F.avg.1, .empty F.avg.1, .empty F.pavg.1⟩

theorem AveragesInv.setState {cfg : Config} {ch : Channel} (h : AveragesInv cfg ch) (tgt : SetTarget) :
    AveragesInv cfg (ch.setState cfg tgt) := by
  rw [Channel.setState_frame]
  exact h

theorem AveragesInv.interact {cfg : Config} {ch : Channel} (h : AveragesInv cfg ch) :
    AveragesInv cfg (ch.interact cfg) := by
  rw [Channel.interact_frame]
  exact h

theorem AveragesInv.forgetSlot {cfg : Config} {ch : Channel} (h : AveragesInv cfg ch) (i : BitVec 16) :
    AveragesInv cfg (ch.forgetSlot i) := by
  unfold Channel.forgetSlot
  split <;> exact h

/-- R155, R194: an identification gives a new iron a fresh block, or leaves the averages alone. -/
theorem AveragesInv.keptByIdentification {cfg : Config} (F : CfgFacts cfg) :
    KeptByIdentification cfg (AveragesInv cfg) where
  ohms _ _ hx := hx
  state _ tgt hx := hx.setState tgt
  pins _ hx := hx
  block _ _ _ _ := .measReset F _
  tip _ _ _ hx := hx
  gains _ _ hx := hx

theorem AveragesInv.takeSample {cfg : Config} {ch : Channel} (h : AveragesInv cfg ch) (slot : Slot)
    (raw : BitVec 16) : AveragesInv cfg (ch.takeSample cfg slot raw) := by
  obtain ⟨ha, hb, hc, hp⟩ := h
  cases slot with
  | a => exact ⟨ha.push _, hb, hc, hp⟩
  | b => exact ⟨ha, hb.push _, hc, hp⟩
  | c => exact ⟨ha, hb, hc.push _, hp⟩

/-- R163, R199: every tick pushes one sample of the power. -/
theorem Channel.updDrive_pwr (cfg : Config) (ch : Channel) : ∃ v, (ch.updDrive cfg).pwr = ch.pwr.push v := by
  unfold Channel.updDrive Channel.measDrive
  rw [Channel.dccAdv_frame]
  split <;> exact ⟨_, rfl⟩

theorem AveragesInv.updDrive {cfg : Config} {ch : Channel} (h : AveragesInv cfg ch) :
    AveragesInv cfg (ch.updDrive cfg) := by
  obtain ⟨ha, hb, hc, hp⟩ := h
  obtain ⟨v, hv⟩ := ch.updDrive_pwr cfg
  rw [Channel.updDrive_frame, hv]
  exact ⟨ha, hb, hc, hp.push v⟩

theorem AveragesInv.update {cfg : Config} {ch : Channel} (h : AveragesInv cfg ch) (tips : List TipRecord) :
    AveragesInv cfg (ch.update cfg tips) := by
  have hidle : AveragesInv cfg (ch.idle cfg cfg.idleTickMs) := by
    rw [Channel.idle_frame]
    exact h
  unfold Channel.update
  dsimp only
  refine AveragesInv.updDrive ?_
  rw [Channel.measUpd_frame]
  split
  · exact hidle.setState .noTip
  · exact hidle

theorem AveragesInv.buildPart {cfg : Config} {ch : Channel} (h : AveragesInv cfg ch) :
    AveragesInv cfg (ch.buildPart cfg).2 := by
  rw [Channel.buildPart_frame]
  exact h

/-! Every step -/

/-- Both channels' averages are in their form. -/
def AllAveragesInv (s : State) : Prop := ∀ c, AveragesInv s.cfg (s.chan c)

theorem allAveragesInv_iff (s : State) :
    AllAveragesInv s ↔ AveragesInv s.cfg s.ch0 ∧ AveragesInv s.cfg s.ch1 :=
  ⟨fun h => ⟨h .ch0, h .ch1⟩, fun h c => by cases c; exacts [h.1, h.2]⟩

theorem AllAveragesInv.setChan {s : State} (h : AllAveragesInv s) (c : Chan) {y : Channel}
    (hy : AveragesInv s.cfg y) : AllAveragesInv (s.setChan c y) := by
  intro d
  rw [State.setChan_cfg, State.chan_setChan]
  split
  · exact hy
  · exact h d

theorem ChannelEffect.averagesInv {cfg : Config} {c : Chan} {x y : Channel} {i : Instr}
    (h : ChannelEffect cfg c x i y) (hx : AveragesInv cfg x) : AveragesInv cfg y := by
  cases h with
  | switchOff => exact AveragesInv.setState (ch := { x with idleMs := 0 }) hx _
  | switchOn => exact AveragesInv.setState (ch := { x with idleMs := 0 }) hx _
  | setTemp v => exact AveragesInv.interact (ch := { x with userTemp := v.setWidth 16 }) hx
  | nextPreset => rw [Channel.interact_frame]; exact hx
  | changeTip => rw [Channel.interact_frame]; exact hx
  | interact => exact hx.interact
  | fixedDuty => exact hx
  | fixedPower d => rw [Channel.setState_frame]; exact hx
  | register a v r => cases r <;> exact hx

theorem HostEffect.averagesInv {i : Instr} {s u : State} (h : HostEffect s i u) (hs : AllAveragesInv s) :
    AllAveragesInv u := by
  cases h with
  | channel effect => exact hs.setChan _ (effect.averagesInv (hs _))
  | disable =>
    obtain ⟨h0, h1⟩ := (allAveragesInv_iff s).1 hs
    exact (allAveragesInv_iff _).2 ⟨h0.setState _, h1.setState _⟩
  | free slot =>
    obtain ⟨h0, h1⟩ := (allAveragesInv_iff s).1 hs
    exact (allAveragesInv_iff _).2 ⟨h0.forgetSlot slot, h1.forgetSlot slot⟩
  | _ =>
    rw [allAveragesInv_iff] at hs ⊢
    exact hs

theorem State.ctrlUpdate_averagesInv {s : State} (hs : AllAveragesInv s) : AllAveragesInv s.ctrlUpdate := by
  rw [allAveragesInv_iff] at hs ⊢
  exact ⟨hs.1.update s.tips, hs.2.update s.tips⟩

theorem State.seqBuild_averagesInv {s : State} (hs : AllAveragesInv s) : AllAveragesInv s.seqBuild := by
  rw [allAveragesInv_iff] at hs ⊢
  exact ⟨hs.1.buildPart, hs.2.buildPart⟩

theorem State.evZc_averagesInv {s : State} (hs : AllAveragesInv s) : AllAveragesInv s.evZc := by
  rw [allAveragesInv_iff] at hs ⊢
  unfold State.evZc State.zcArm
  repeat' split
  all_goals exact hs

theorem State.evTmr_averagesInv {s : State} (hs : AllAveragesInv s) : AllAveragesInv s.evTmr := by
  unfold State.evTmr
  split
  · exact hs
  split
  · exact hs
  · have disarmed : AllAveragesInv { s with timerArmed := false } :=
      (allAveragesInv_iff _).2 ((allAveragesInv_iff s).1 hs)
    have built := State.seqBuild_averagesInv disarmed
    dsimp only
    split
    · exact State.ctrlUpdate_averagesInv built
    · rw [allAveragesInv_iff] at built ⊢
      exact built

theorem SampleTaken.averagesInv {c : Chan} {raw : BitVec 16} {s u : State} (h : SampleTaken c raw s u)
    (F : CfgFacts s.cfg) (hs : AllAveragesInv s) : AllAveragesInv u := by
  cases h with
  | dropped => exact hs
  | identified =>
    have hident := (AveragesInv.keptByIdentification F).ident (hs c) s.tips raw.toNat
    exact (allAveragesInv_iff _).2 ((allAveragesInv_iff _).1 (hs.setChan c hident))
  | averaged slot => exact hs.setChan c ((hs c).takeSample slot raw)

theorem State.adcAdvance_averagesInv {s : State} (hs : AllAveragesInv s) : AllAveragesInv s.adcAdvance := by
  rw [allAveragesInv_iff] at hs
  unfold State.adcAdvance
  dsimp only
  split
  · exact (allAveragesInv_iff _).2 hs
  · exact State.ctrlUpdate_averagesInv ((allAveragesInv_iff _).2 hs)

theorem State.evAdc_averagesInv {s : State} (F : CfgFacts s.cfg) (tag : MuxCode) (raw : BitVec 16)
    (hs : AllAveragesInv s) : AllAveragesInv (s.evAdc tag raw) := by
  have hs' := (allAveragesInv_iff s).1 hs
  rcases State.evAdc_cases tag raw s with ⟨-, h⟩ | h | ⟨-, -, -, h | ⟨u, taken, h⟩⟩ <;> rw [h]
  · exact hs
  · exact (allAveragesInv_iff _).2 hs'
  · exact (allAveragesInv_iff _).2 hs'
  · exact State.adcAdvance_averagesInv (taken.averagesInv F ((allAveragesInv_iff _).2 hs'))

theorem allAveragesInv_kept : KeptByOperations AllAveragesInv where
  begun _ _ hs := (allAveragesInv_iff _).2 ((allAveragesInv_iff _).1 hs)
  answered u t h hu := by
    unfold Answered at h
    rw [h]
    exact (allAveragesInv_iff _).2 ((allAveragesInv_iff u).1 hu)
  host _ _ _ _ hs h := h.averagesInv hs
  rst _ F _ := (allAveragesInv_iff _).2 ⟨.reset F, .reset F⟩
  zc _ _ hs := State.evZc_averagesInv hs
  tmr _ _ hs := State.evTmr_averagesInv hs
  adc _ tag raw F hs := State.evAdc_averagesInv F tag raw hs
  oc s _ hs := by
    rw [allAveragesInv_iff] at hs ⊢
    unfold State.evOc
    split <;> exact hs

/-- Settles O14: no operation takes an average out of its form. -/
theorem averagesInvariantKept : Obligations.AveragesInvariantKept :=
  fun _ _ hs h => allAveragesInv_kept.step hs h

end Sys2Proof.Machine

/-! # The tip pool (R31, R53, R252) -/

namespace Sys2Proof.Machine

/-! Records -/

theorem RecordOk.free (cfg : Config) : RecordOk cfg .free :=
  ⟨.inl rfl, fun i => by cases i <;> exact Nat.zero_le _, fun i => by cases i <;> exact Nat.zero_le _,
    fun j => by cases j <;> exact Nat.zero_le _⟩

theorem calTemp_le (i : Idx3) : (calTemp.get i).toNat ≤ 32767 := by cases i <;> decide

/-- R252: the record of a new tip whose iron is known. -/
theorem RecordOk.default {cfg : Config} (F : CfgFacts cfg) {n : BitVec 16} (hn : n.toNat < cfg.numTipNames)
    (known : tipNameIron cfg n ≠ .unknown) : RecordOk cfg (defaultRecord cfg n) :=
  ⟨.inr hn, calTemp_le, F.defCal _ known, F.defPid _⟩

theorem Triple.get_set {α : Type} (x : Triple α) (i j : Idx3) (v : α) :
    (x.set i v).get j = if j = i then v else x.get j := by
  cases i <;> cases j <;> rfl

theorem Quad.get_set {α : Type} (x : Quad α) (i j : Idx4) (v : α) :
    (x.set i v).get j = if j = i then v else x.get j := by
  cases i <;> cases j <;> rfl

theorem RecordOk.setPoint {cfg : Config} {r : TipRecord} (h : RecordOk cfg r) (p : Idx3) {x : BitVec 16}
    {m : BitVec 32} (hx : x.toNat ≤ 32767) (hm : m.toNat ≤ 16777215) : RecordOk cfg (r.setPoint p x m) := by
  obtain ⟨hname, ht, hcal, hk⟩ := h
  refine ⟨hname, fun i => ?_, fun i => ?_, hk⟩
  · simp only [TipRecord.setPoint, Triple.get_set]
    split
    · exact hx
    · exact ht i
  · simp only [TipRecord.setPoint, Triple.get_set]
    split
    · exact hm
    · exact hcal i

theorem toNat_setWidth_16 {v : RegWord} (h : v.toNat < 65536) : (v.setWidth 16).toNat = v.toNat := by
  rw [BitVec.toNat_setWidth, Nat.mod_eq_of_lt h]

/-- R53: what REG.WR lets into a record is in range. -/
theorem RecordOk.write {cfg : Config} (F : CfgFacts cfg) {r : TipRecord} (h : RecordOk cfg r) {v : RegWord}
    {n : Nat} {f : TipReg} (legal : (Reg.tip n f).legal cfg v = true) : RecordOk cfg (f.write v r) := by
  obtain ⟨hname, ht, hcal, hk⟩ := h
  cases f with
  | name =>
    simp only [Reg.legal, Bool.or_eq_true, decide_eq_true_eq, beq_iff_eq] at legal
    refine ⟨?_, ht, hcal, hk⟩
    rcases legal with hv | rfl
    · have := F.names.2
      exact .inr ((toNat_setWidth_16 (by omega)).trans_lt hv)
    · exact .inl rfl
  | flags => exact ⟨hname, ht, hcal, hk⟩
  | calT j =>
    simp only [Reg.legal, decide_eq_true_eq] at legal
    refine ⟨hname, fun i => ?_, hcal, hk⟩
    simp only [TipReg.write, Triple.get_set]
    split
    · rw [toNat_setWidth_16 (by omega)]
      exact legal
    · exact ht i
  | calM j =>
    simp only [Reg.legal, decide_eq_true_eq] at legal
    refine ⟨hname, ht, fun i => ?_, hk⟩
    simp only [TipReg.write, Triple.get_set]
    split
    · exact legal
    · exact hcal i
  | gain j =>
    simp only [Reg.legal, decide_eq_true_eq] at legal
    refine ⟨hname, ht, hcal, fun i => ?_⟩
    simp only [TipReg.write, Quad.get_set]
    split
    · exact legal
    · exact hk i

/-! Pools -/

/-- A pool of `NUM_TIP_SETTINGS` records in range. -/
def PoolOk (cfg : Config) (tips : List TipRecord) : Prop :=
  tips.length = cfg.numTipSettings ∧ ∀ r ∈ tips, RecordOk cfg r

theorem poolInv_iff (s : State) : PoolInv s ↔ PoolOk s.cfg s.tips := by
  unfold PoolInv PoolOk State.poolWf
  rw [beq_iff_eq]

theorem PoolOk.fresh (cfg : Config) : PoolOk cfg (List.replicate cfg.numTipSettings .free) :=
  ⟨List.length_replicate, fun _ hr => List.eq_of_mem_replicate hr ▸ .free cfg⟩

theorem PoolOk.record {cfg : Config} {tips : List TipRecord} (h : PoolOk cfg tips) {i : Nat}
    (hi : i < tips.length) : RecordOk cfg (tipAt tips i) :=
  h.2 _ (tipAt_mem hi)

/-- Replacing a record: one in range, if the pool has the slot at all. -/
theorem PoolOk.set {cfg : Config} {tips : List TipRecord} (h : PoolOk cfg tips) (i : Nat) {r : TipRecord}
    (hr : i < tips.length → RecordOk cfg r) : PoolOk cfg (tips.set i r) := by
  obtain ⟨hlen, hall⟩ := h
  refine ⟨by rw [List.length_set, hlen], fun x hx => ?_⟩
  by_cases hi : i < tips.length
  · rcases List.mem_or_eq_of_mem_set hx with hx | rfl
    · exact hall x hx
    · exact hr hi
  · rw [List.set_eq_of_length_le (Nat.le_of_not_lt hi)] at hx
    exact hall x hx

/-- R253: a newly allocated slot gets the default record of a known iron. -/
theorem PoolOk.allocTip {cfg : Config} (F : CfgFacts cfg) {tips : List TipRecord} (h : PoolOk cfg tips)
    {n : BitVec 16} (hn : n.toNat < cfg.numTipNames) (known : tipNameIron cfg n ≠ .unknown) :
    PoolOk cfg (allocTip cfg n tips).2 := by
  rcases allocTip_cases cfg n tips with ⟨i, -, -, heq⟩ | ⟨i, -, -, heq⟩ | heq <;> rw [heq]
  · exact h
  · exact h.set i fun _ => .default F hn known
  · exact h

/-- R191, R194: an identification allocates no more than the default tip of a known iron. -/
theorem PoolOk.ident {cfg : Config} (F : CfgFacts cfg) {tips : List TipRecord} (h : PoolOk cfg tips)
    (ch : Channel) (raw : Nat) : PoolOk cfg (ch.ident cfg tips raw).2 := by
  unfold Channel.ident
  rcases Channel.setIron_pool cfg tips { ch with idOhms := BitVec.ofNat 32 (idResistance cfg raw) }
    (ironOf (idResistance cfg raw)) with heq | ⟨known, heq⟩ <;> dsimp only <;> rw [heq]
  · exact h
  · obtain ⟨hn, hiron⟩ := F.defTip _ known
    exact h.allocTip F hn (hiron.symm ▸ known)

/-! Calibration and names -/

/-- R165: a reading that CAL.SAVE stores fits a calibration register. -/
theorem Channel.calReading_le {cfg : Config} (F : CfgFacts cfg) {ch : Channel} {v : Nat}
    (h : ch.calReading cfg = some v) : v ≤ 16777215 := by
  have htc : ∀ (x : Nat) (b : Bool),
      (if decide (calTcMin ≤ x) && decide (x ≤ calTcMax) && b then some x else none) = some v → v ≤ 16777215 := by
    intro x b hx
    split at hx
    · next ok =>
      cases hx
      simp only [Bool.and_eq_true, decide_eq_true_eq] at ok
      exact ok.1.2.trans (by decide)
    · cases hx
  unfold Channel.calReading at h
  dsimp only at h
  split at h
  · exact htc _ _ h
  · exact htc _ _ h
  · exact htc _ _ h
  · split at h
    · next ok =>
      cases h
      exact ok.2.trans F.calR.2
    · cases h
  · cases h
  · cases h

/-- Every tip name belongs to a known iron. -/
def NamesKnown (cfg : Config) : Prop := ∀ i ∈ cfg.tipNameIron, i ≠ .unknown

theorem NamesKnown.iron {cfg : Config} (h : NamesKnown cfg) (F : CfgFacts cfg) {n : BitVec 16}
    (hn : n.toNat < cfg.numTipNames) : tipNameIron cfg n ≠ .unknown := by
  have hlt : n.toNat < cfg.tipNameIron.length := hn.trans_eq F.nameIrons.symm
  unfold tipNameIron
  rw [List.getElem?_eq_getElem hlt]
  exact h _ (List.getElem_mem hlt)

/-! Every step -/

/-- The invariant of the pool, under names of known irons. -/
def NamedPoolInv (s : State) : Prop := NamesKnown s.cfg ∧ PoolOk s.cfg s.tips

theorem HostEffect.namedPoolInv {i : Instr} {s u : State} (h : HostEffect s i u) (F : CfgFacts s.cfg)
    (hs : NamedPoolInv s) : NamedPoolInv u := by
  obtain ⟨names, pool⟩ := hs
  cases h with
  | @channel _ c y effect => cases c <;> exact ⟨names, pool⟩
  | calSave c idx p reading =>
    refine ⟨names, pool.set _ fun hi => (pool.record hi).setPoint p (calTemp_le p) ?_⟩
    have := Channel.calReading_le F reading
    rw [natWord, BitVec.toNat_ofNat]
    omega
  | calSet c idx p x m range =>
    exact ⟨names, pool.set _ fun hi => (pool.record hi).setPoint p range.1 range.2⟩
  | alloc n range => exact ⟨names, pool.allocTip F range (names.iron F range)⟩
  | free slot => exact ⟨names, pool.set _ fun _ => .free s.cfg⟩
  | tipRegister a v n r legal => exact ⟨names, pool.set n fun hi => (pool.record hi).write F legal⟩
  | _ => exact ⟨names, pool⟩

theorem SampleTaken.namedPoolInv {c : Chan} {raw : BitVec 16} {s u : State} (h : SampleTaken c raw s u)
    (F : CfgFacts s.cfg) (hs : NamedPoolInv s) : NamedPoolInv u := by
  obtain ⟨names, pool⟩ := hs
  cases h with
  | dropped => exact ⟨names, pool⟩
  | identified =>
    refine ⟨?_, ?_⟩
    · rw [State.putChannel_cfg]
      exact names
    · rw [State.putChannel_cfg, State.putChannel_tips]
      exact pool.ident F _ _
  | averaged slot => cases c <;> exact ⟨names, pool⟩

theorem State.adcAdvance_namedPoolInv {s : State} (hs : NamedPoolInv s) : NamedPoolInv s.adcAdvance := by
  unfold State.adcAdvance
  dsimp only
  split <;> exact hs

theorem State.evAdc_namedPoolInv {s : State} (F : CfgFacts s.cfg) (tag : MuxCode) (raw : BitVec 16)
    (hs : NamedPoolInv s) : NamedPoolInv (s.evAdc tag raw) := by
  rcases State.evAdc_cases tag raw s with ⟨-, h⟩ | h | ⟨-, -, -, h | ⟨u, taken, h⟩⟩ <;> rw [h]
  · exact hs
  · exact hs
  · exact hs
  · exact State.adcAdvance_namedPoolInv (taken.namedPoolInv F hs)

theorem namedPoolInv_kept : KeptByOperations NamedPoolInv where
  begun _ _ hs := hs
  answered u t h hu := by
    unfold Answered at h
    rw [h]
    exact hu
  host _ _ _ F hs h := h.namedPoolInv F hs
  rst s _ hs := ⟨hs.1, .fresh s.cfg⟩
  zc s _ hs := by
    unfold State.evZc State.zcArm
    repeat' split
    all_goals exact hs
  tmr s _ hs := by
    unfold State.evTmr
    dsimp only
    repeat' split
    all_goals exact hs
  adc _ tag raw F hs := State.evAdc_namedPoolInv F tag raw hs
  oc s _ hs := by
    unfold State.evOc
    split <;> exact hs

/-- Settles O12: every record an operation writes is in range. -/
theorem tipPoolInvariantKept : Obligations.TipPoolInvariantKept := fun s t names hs h =>
  (poolInv_iff t).2 (namedPoolInv_kept.step ⟨names, (poolInv_iff s).1 hs⟩ h).2

/-! # The state after reset (R65, R312) -/

theorem reset_dutyInv (cfg : Config) : DutyInv cfg (Channel.reset cfg) :=
  ⟨Nat.zero_lt_succ _, Nat.zero_le _, Nat.zero_le _⟩

theorem reset_stateInv (cfg : Config) : StateInv (Channel.reset cfg) :=
  ⟨fun _ => .inr (.inr rfl), nofun, ⟨nofun, nofun⟩, fun _ => ⟨rfl, rfl, rfl⟩, nofun⟩

theorem reset_pinsInv (cfg : Config) : PinsInv cfg (Channel.reset cfg) :=
  ⟨fun _ => ⟨rfl, rfl⟩, nofun, .inl rfl⟩

theorem reset_tipRefInv (cfg : Config) (tips : List TipRecord) : TipRefInv cfg tips (Channel.reset cfg) :=
  fun h => absurd rfl h

theorem reset_rangesInv {cfg : Config} (F : CfgFacts cfg) : RangesInv cfg (Channel.reset cfg) :=
  ⟨Nat.zero_le _, Nat.zero_le _, fun i => by cases i <;> exact Nat.zero_le _, F.ident.1⟩

theorem reset_outputInv (cfg : Config) : OutputInv cfg (Channel.reset cfg) :=
  ⟨le_rfl, Int.natCast_nonneg _, le_rfl, Int.natCast_nonneg _⟩

theorem reset_channelInv {cfg : Config} (F : CfgFacts cfg) (tips : List TipRecord) :
    ChannelInv cfg tips (Channel.reset cfg) :=
  ⟨reset_dutyInv cfg, reset_stateInv cfg, reset_pinsInv cfg, reset_tipRefInv cfg tips, reset_rangesInv F,
    reset_outputInv cfg⟩

theorem resetWith_chan (cfg : Config) (v : BitVec 16) (b : Bool) (c : Chan) :
    (State.resetWith cfg v b).chan c = Channel.reset cfg := by
  cases c <;> rfl

/-- Settles O10, invariant by invariant. -/
theorem invariantsHoldAtReset : Obligations.InvariantsHoldAtReset := by
  intro cfg v b hcfg
  have F := configLegal_facts hcfg
  obtain ⟨scheduler, counters⟩ := resetWith_queueInv F v b
  have channels : ChannelsInv (State.resetWith cfg v b) := fun c => by
    rw [resetWith_chan]
    exact reset_channelInv F _
  have averages : AllAveragesInv (State.resetWith cfg v b) := fun c => by
    rw [resetWith_chan]
    exact .reset F
  have drives : DriveSafe (State.resetWith cfg v b) := fun c h => by
    rw [resetWith_chan] at h
    exact absurd rfl h
  exact ⟨scheduler, counters, nofun, (poolInv_iff _).2 (.fresh cfg), channels, averages,
    ⟨⟨nofun, fun h => absurd rfl h⟩, nofun, ⟨nofun, fun h => absurd rfl h⟩⟩, drives⟩

end Sys2Proof.Machine

/-! # The "written by" columns (R21, R22, R25 to R31, R54)

Each operation's frame, read against the columns: what the frame names has its cause, everything else is
unchanged. -/

namespace Sys2Proof.Machine

/-! The causes -/

/-- EV.ADC. -/
def IsConversion (i : Instr) : Prop := ∃ tag raw, i = .evAdc tag raw

/-- An event that may end in a control update (R222, R226). -/
def IsUpdate (i : Instr) : Prop := i = .evTmr ∨ IsConversion i

/-- CH.CHANGETIP of either channel, which may trap (R203). -/
def IsTipChange (i : Instr) : Prop := ∃ c n, i = .chChangetip c n

/-- A write to `IRQ_CLEAR` (R51). -/
def IsIrqClear (i : Instr) : Prop := ∃ v, i = .regWr 0x0005 v

/-- REG.WR. -/
def IsRegisterWrite (i : Instr) : Prop := ∃ a v, i = .regWr a v

/-- A command that may switch both channels off (R236, R237). -/
def IsDisable (i : Instr) : Prop := i = .ctlDisable ∨ i = .ctlToggle

/-- CH.CHANGETIP of the channel. -/
def ChangesTip (c : Chan) (i : Instr) : Prop := ∃ n, i = .chChangetip c n

/-- CH.SETSTATE and CH.FIXEDPWR of the channel. -/
def IsSwitch (c : Chan) (i : Instr) : Prop := (∃ j, i = .chSetstate c j) ∨ ∃ d, i = .chFixedpwr c d

/-- A user interaction with the channel (R187). -/
def Interacts (c : Chan) (i : Instr) : Prop :=
  (∃ v, i = .chSettemp c v) ∨ i = .chNextpreset c ∨ i = .chInteract c ∨ ChangesTip c i

/-! The columns -/

/-- The columns of the machine's own elements. -/
structure MachineWritten (i : Instr) (s t : State) : Prop where
  cfg : t.cfg = s.cfg
  pend : t.pend = s.pend
  chipTempIn : t.chipTempIn = s.chipTempIn
  rst : t.rst = s.rst
  ret : t.ret = s.ret
  ctlEnabled : t.ctlEnabled ≠ s.ctlEnabled → i = .ctlEnable ∨ IsDisable i
  trap : t.fatal ≠ s.fatal ∨ t.fatalCode ≠ s.fatalCode → IsConversion i ∨ IsTipChange i
  overrun : t.overrun ≠ s.overrun → i = .evZc ∨ IsIrqClear i
  answer : t.cmdErr ≠ s.cmdErr ∨ t.cmdCode ≠ s.cmdCode ∨ t.resp ≠ s.resp ∨ t.respOk ≠ s.respOk →
    i.isHost = true
  timerArmed : t.timerArmed ≠ s.timerArmed → i = .evZc ∨ i = .evTmr
  conversion : t.adcBusy ≠ s.adcBusy ∨ t.qIdx ≠ s.qIdx ∨ t.adcMux ≠ s.adcMux ∨ t.adcStart ≠ s.adcStart →
    IsUpdate i
  tmrArm : t.tmrArm ≠ s.tmrArm → i = .evZc
  queue : t.q ≠ s.q ∨ t.qLen ≠ s.qLen → i = .evTmr
  counters : t.refreshCnt ≠ s.refreshCnt ∨ t.reportCnt ≠ s.reportCnt → i = .evZc
  refreshReq : t.refreshReq ≠ s.refreshReq → i = .evZc ∨ i = .evOc ∨ IsIrqClear i
  logReq : t.logReq ≠ s.logReq → i = .evZc ∨ IsIrqClear i
  chipTemp : t.chipTemp ≠ s.chipTemp → i = .ctlChiptemp
  tips : t.tips ≠ s.tips → IsConversion i ∨ IsRegisterWrite i ∨ (∃ c j, i = .calSave c j)
    ∨ (∃ c j x m, i = .calSet c j x m) ∨ (∃ n, i = .tipAlloc n) ∨ ∃ n, i = .tipFree n

/-- The columns of the elements of channel `c`, which goes from `x` to `y`. -/
structure ChannelWritten (i : Instr) (c : Chan) (x y : Channel) : Prop where
  state : y.state ≠ x.state → IsUpdate i ∨ i = .evOc ∨ IsDisable i ∨ IsSwitch c i ∨ Interacts c i
  iron : y.iron ≠ x.iron ∨ y.idOhms ≠ x.idOhms → IsConversion i
  userTemp : y.userTemp ≠ x.userTemp → (∃ v, i = .chSettemp c v) ∨ i = .chNextpreset c
  curTemp : y.curTemp ≠ x.curTemp → IsUpdate i
  preset : y.preset ≠ x.preset → i = .chNextpreset c
  idleMs : y.idleMs ≠ x.idleMs → IsUpdate i ∨ IsSwitch c i ∨ Interacts c i
  tip : y.tip ≠ x.tip ∨ y.k ≠ x.k → IsConversion i ∨ ChangesTip c i
  identCnt : y.identCnt ≠ x.identCnt → i = .evTmr
  fixedDuty : y.fixedDuty ≠ x.fixedDuty → ∃ d, i = .chFixedpwr c d
  drive : y.drive ≠ x.drive → i = .evZc ∨ IsUpdate i ∨ i = .evOc ∨ IsDisable i ∨ IsSwitch c i ∨ IsTipChange i
  pins : y.voltSel ≠ x.voltSel ∨ y.led ≠ x.led → IsUpdate i ∨ IsDisable i ∨ IsSwitch c i ∨ Interacts c i
  settings : y.presets ≠ x.presets ∨ y.setbackTemp ≠ x.setbackTemp ∨ y.setbackTime ≠ x.setbackTime
    ∨ y.safetyOffTime ≠ x.safetyOffTime → IsRegisterWrite i
  selectedTip : y.selectedTip ≠ x.selectedTip →
    IsConversion i ∨ ChangesTip c i ∨ IsRegisterWrite i ∨ ∃ n, i = .tipFree n
  samples : y.avgA ≠ x.avgA ∨ y.avgB ≠ x.avgB ∨ y.avgC ≠ x.avgC ∨ y.rawA ≠ x.rawA ∨ y.rawB ≠ x.rawB
    ∨ y.rawC ≠ x.rawC ∨ y.presentA ≠ x.presentA ∨ y.presentB ≠ x.presentB → IsConversion i
  output : y.pwr ≠ x.pwr ∨ y.acc ≠ x.acc ∨ y.curOut ≠ x.curOut ∨ y.lastIn ≠ x.lastIn
    ∨ y.lastErr ≠ x.lastErr → IsUpdate i
  control : y.ctlEn ≠ x.ctlEn ∨ y.duty ≠ x.duty ∨ y.on ≠ x.on →
    IsUpdate i ∨ i = .evOc ∨ IsDisable i ∨ IsSwitch c i
  history : y.iAcc ≠ x.iAcc ∨ y.tbhPrev ≠ x.tbhPrev ∨ y.haveIn ≠ x.haveIn ∨ y.haveErr ≠ x.haveErr →
    IsUpdate i ∨ ∃ j, i = .chSetstate c j

/-- What changes nothing needs no cause. -/
theorem MachineWritten.refl (i : Instr) (s : State) : MachineWritten i s s := by
  constructor <;> simp

theorem MachineWritten.setChan (i : Instr) (s : State) (c : Chan) (y : Channel) :
    MachineWritten i s (s.setChan c y) := by
  constructor <;> simp

theorem ChannelWritten.refl (i : Instr) (c : Chan) (x : Channel) : ChannelWritten i c x x := by
  constructor <;> simp

/-! Narrower frames of a change of state -/

/-- R187: an interaction takes `setback` to `active` without touching the controller. -/
theorem Channel.interact_narrow (cfg : Config) (ch : Channel) : let x := ch.interact cfg
    x = { ch with state := x.state, voltSel := x.voltSel, led := x.led, idleMs := x.idleMs } := by
  unfold Channel.interact
  dsimp only
  split
  · next h =>
    simp [Channel.setState, Channel.exitRunning, Channel.enterState, targetState, h, ChState.isHeating]
  · rfl

/-- R185: the exit action stops the controller; its history stays (R132). -/
theorem Channel.exitRunning_frame (tgt : SetTarget) (ch : Channel) : let x := ch.exitRunning tgt
    x = { ch with ctlEn := x.ctlEn, duty := x.duty, on := x.on, drive := x.drive } := by
  simp only [Channel.exitRunning, Channel.ctlEnable, Bool.false_eq_true, if_false]
  repeat' split
  all_goals rfl

/-- R185, R200, R236: switching a channel off leaves its idle timer and the controller's history. -/
theorem Channel.switchOff_frame (cfg : Config) (ch : Channel) : let x := ch.setState cfg ch.offTarget
    x = { ch with
      state := x.state, ctlEn := x.ctlEn, duty := x.duty, on := x.on, drive := x.drive
      voltSel := x.voltSel, led := x.led } := by
  unfold Channel.setState
  split
  · rfl
  · rw [Channel.exitRunning_frame]
    unfold Channel.offTarget
    split <;> rfl

/-- R185, R205: fixed power leaves the controller's history. -/
theorem Channel.fixPower_frame (cfg : Config) (ch : Channel) : let x := ch.setState cfg .fixedPower
    x = { ch with
      state := x.state, ctlEn := x.ctlEn, duty := x.duty, on := x.on, drive := x.drive
      voltSel := x.voltSel, led := x.led, idleMs := x.idleMs } := by
  unfold Channel.setState
  split
  · rfl
  · rw [Channel.exitRunning_frame]
    rfl

/-! The channel's columns -/

section
variable {i : Instr} {c : Chan} {x y : Channel}

/-- R228: a turn of the control update is the update's. -/
theorem TurnWrites.written (h : TurnWrites x y) (update : IsUpdate i) : ChannelWritten i c x y := by
  unfold TurnWrites at h
  rw [h]
  exact
    { ChannelWritten.refl i c x with
      state := fun _ => .inl update
      curTemp := fun _ => update
      idleMs := fun _ => .inl update
      drive := fun _ => .inr (.inl update)
      pins := fun _ => .inl update
      output := fun _ => update
      control := fun _ => .inl update
      history := fun _ => .inl update }

/-- R224: EV.TMR builds the queue first. -/
theorem ChannelWritten.built {cfg : Config} (h : ChannelWritten .evTmr c (x.buildPart cfg).2 y) :
    ChannelWritten .evTmr c x y := by
  rw [Channel.buildPart_frame] at h
  exact { h with identCnt := fun _ => rfl }

/-- `y` has of `x` what a conversion never writes: the host's settings and the counter of the queue. -/
def KeepsSettings (x y : Channel) : Prop :=
  y = { y with
    userTemp := x.userTemp, preset := x.preset, identCnt := x.identCnt, fixedDuty := x.fixedDuty
    presets := x.presets, setbackTemp := x.setbackTemp, setbackTime := x.setbackTime
    safetyOffTime := x.safetyOffTime }

theorem KeepsSettings.refl (x : Channel) : KeepsSettings x x := rfl

theorem KeepsSettings.setState (h : KeepsSettings x y) (cfg : Config) (tgt : SetTarget) :
    KeepsSettings x (y.setState cfg tgt) := by
  unfold KeepsSettings at h ⊢
  rw [Channel.setState_frame, h]

theorem KeepsSettings.keptByIdentification (cfg : Config) (x : Channel) :
    KeptByIdentification cfg (KeepsSettings x) where
  ohms y e h := by unfold KeepsSettings at h ⊢; rw [h]
  state y tgt h := h.setState cfg tgt
  pins y h := by unfold KeepsSettings at h ⊢; rw [h]
  block y t tip h := by unfold KeepsSettings at h ⊢; rw [h]; rfl
  tip y tip sel h := by unfold KeepsSettings at h ⊢; rw [h]
  gains y r h := by unfold KeepsSettings at h ⊢; rw [h]; rfl

theorem KeepsSettings.takeSample (cfg : Config) (slot : Slot) (raw : BitVec 16) (x : Channel) :
    KeepsSettings x (x.takeSample cfg slot raw) := by
  cases slot <;> rfl

theorem KeepsSettings.turn {z : Channel} (h : KeepsSettings x y) (hz : TurnWrites y z) : KeepsSettings x z := by
  unfold KeepsSettings TurnWrites at *
  rw [hz, h]

/-- A conversion may write everything else. -/
theorem KeepsSettings.written (h : KeepsSettings x y) (conversion : IsConversion i) :
    ChannelWritten i c x y := by
  have update : IsUpdate i := .inr conversion
  unfold KeepsSettings at h
  rw [h]
  exact
    { ChannelWritten.refl i c x with
      state := fun _ => .inl update
      iron := fun _ => conversion
      curTemp := fun _ => update
      idleMs := fun _ => .inl update
      tip := fun _ => .inl conversion
      drive := fun _ => .inr (.inl update)
      pins := fun _ => .inl update
      selectedTip := fun _ => .inl conversion
      samples := fun _ => conversion
      output := fun _ => update
      control := fun _ => .inl update
      history := fun _ => .inl update }

/-- R187: what an interaction adds to what its command wrote of the channel. -/
theorem ChannelWritten.interact {cfg : Config} (interacts : Interacts c i) (h : ChannelWritten i c x y) :
    ChannelWritten i c x (y.interact cfg) := by
  rw [Channel.interact_narrow]
  exact
    { h with
      state := fun _ => .inr (.inr (.inr (.inr interacts)))
      idleMs := fun _ => .inr (.inr interacts)
      pins := fun _ => .inr (.inr (.inr interacts)) }

/-- R185: what CH.SETSTATE writes. -/
theorem ChannelWritten.setState {cfg : Config} {tgt : SetTarget} {idx : BitVec 4} :
    ChannelWritten (.chSetstate c idx) c x ({ x with idleMs := 0 }.setState cfg tgt) := by
  have switch : IsSwitch c (.chSetstate c idx) := .inl ⟨idx, rfl⟩
  rw [Channel.setState_frame]
  exact
    { ChannelWritten.refl _ c x with
      state := fun _ => .inr (.inr (.inr (.inl switch)))
      idleMs := fun _ => .inr (.inl switch)
      drive := fun _ => .inr (.inr (.inr (.inr (.inl switch))))
      pins := fun _ => .inr (.inr (.inl switch))
      control := fun _ => .inr (.inr (.inr switch))
      history := fun _ => .inr ⟨idx, rfl⟩ }

/-- R205: what CH.FIXEDPWR writes. -/
theorem ChannelWritten.fixedPower {d : BitVec 32} (n : BitVec 7)
    (h : y = { x with
      state := y.state, ctlEn := y.ctlEn, duty := y.duty, on := y.on, drive := y.drive
      voltSel := y.voltSel, led := y.led, idleMs := y.idleMs, fixedDuty := n }) :
    ChannelWritten (.chFixedpwr c d) c x y := by
  have switch : IsSwitch c (.chFixedpwr c d) := .inr ⟨d, rfl⟩
  rw [h]
  exact
    { ChannelWritten.refl _ c x with
      state := fun _ => .inr (.inr (.inr (.inl switch)))
      idleMs := fun _ => .inr (.inl switch)
      fixedDuty := fun _ => ⟨d, rfl⟩
      drive := fun _ => .inr (.inr (.inr (.inr (.inl switch))))
      pins := fun _ => .inr (.inr (.inl switch))
      control := fun _ => .inr (.inr (.inr switch)) }

/-- R236, R237: what switching a channel off writes. -/
theorem ChannelWritten.disable {cfg : Config} (disable : IsDisable i) :
    ChannelWritten i c x (x.setState cfg x.offTarget) := by
  rw [Channel.switchOff_frame]
  exact
    { ChannelWritten.refl i c x with
      state := fun _ => .inr (.inr (.inl disable))
      drive := fun _ => .inr (.inr (.inr (.inl disable)))
      pins := fun _ => .inr (.inl disable)
      control := fun _ => .inr (.inr (.inl disable)) }

/-- What a host command writes of its own channel. -/
theorem ChannelEffect.written {cfg : Config} (h : ChannelEffect cfg c x i y) : ChannelWritten i c x y := by
  cases h with
  | switchOff => exact .setState
  | switchOn => exact .setState
  | setTemp v =>
    exact .interact (.inl ⟨v, rfl⟩) { ChannelWritten.refl _ c x with userTemp := fun _ => .inl ⟨v, rfl⟩ }
  | nextPreset =>
    exact .interact (.inr (.inl rfl))
      { ChannelWritten.refl _ c x with userTemp := fun _ => .inr rfl, preset := fun _ => rfl }
  | changeTip slot r =>
    have changes : ChangesTip c (.chChangetip c slot) := ⟨slot, rfl⟩
    exact .interact (.inr (.inr (.inr changes)))
      { ChannelWritten.refl _ c x with tip := fun _ => .inr changes, selectedTip := fun _ => .inr (.inl changes) }
  | interact => exact .interact (.inr (.inr (.inl rfl))) (.refl _ c x)
  | fixedDuty d => exact .fixedPower (d.setWidth 7) rfl
  | fixedPower d => exact .fixedPower (d.setWidth 7) (Channel.fixPower_frame cfg _)
  | register a v r =>
    have written : IsRegisterWrite (.regWr a v) := ⟨a, v, rfl⟩
    cases r with
    | preset | setbackTemp | setbackTime | safetyOffTime =>
      exact { ChannelWritten.refl _ c x with settings := fun _ => written }
    | selectedTip =>
      exact { ChannelWritten.refl _ c x with selectedTip := fun _ => .inr (.inr (.inl written)) }
    | _ => exact .refl _ c x

end

/-! Host commands -/

/-- What holds of the channel written holds of both. -/
theorem State.setChan_written {i : Instr} {s : State} {c : Chan} {y : Channel}
    (h : ChannelWritten i c (s.chan c) y) (d : Chan) : ChannelWritten i d (s.chan d) ((s.setChan c y).chan d) := by
  rw [State.chan_setChan]
  split
  · next hd => exact hd ▸ h
  · exact .refl i d _

theorem HostEffect.machineWritten {i : Instr} {s u : State} (h : HostEffect s i u) : MachineWritten i s u := by
  have unchanged := MachineWritten.refl i s
  cases h with
  | nothing => exact unchanged
  | enable issued =>
    exact { unchanged with ctlEnabled := fun _ => issued.imp_right .inr }
  | disable issued => exact { unchanged with ctlEnabled := fun _ => .inr issued }
  | chipTemp => exact { unchanged with chipTemp := fun _ => rfl }
  | tipMismatch c slot => exact { unchanged with trap := fun _ => .inr ⟨c, slot, rfl⟩ }
  | channel => exact .setChan i s _ _
  | calSave c idx => exact { unchanged with tips := fun _ => .inr (.inr (.inl ⟨c, idx, rfl⟩)) }
  | calSet c idx p x m =>
    exact { unchanged with tips := fun _ => .inr (.inr (.inr (.inl ⟨c, idx, x, m, rfl⟩))) }
  | alloc n => exact { unchanged with tips := fun _ => .inr (.inr (.inr (.inr (.inl ⟨n, rfl⟩)))) }
  | free slot => exact { unchanged with tips := fun _ => .inr (.inr (.inr (.inr (.inr ⟨slot, rfl⟩)))) }
  | irqClear v =>
    have clear : IsIrqClear (.regWr 0x0005 v) := ⟨v, rfl⟩
    exact
      { unchanged with
        overrun := fun _ => .inr clear
        answer := fun _ => rfl
        refreshReq := fun _ => .inr (.inr clear)
        logReq := fun _ => .inr clear }
  | tipRegister a v => exact { unchanged with tips := fun _ => .inr (.inl ⟨a, v, rfl⟩) }

theorem HostEffect.channelWritten {i : Instr} {s u : State} (h : HostEffect s i u) (d : Chan) :
    ChannelWritten i d (s.chan d) (u.chan d) := by
  have unchanged := ChannelWritten.refl i d (s.chan d)
  cases h with
  | channel effect => exact State.setChan_written effect.written d
  | disable issued => cases d <;> exact .disable issued
  | tipMismatch c slot =>
    rw [State.raiseFatal_chan]
    exact { unchanged with drive := fun _ => .inr (.inr (.inr (.inr (.inr ⟨c, slot, rfl⟩)))) }
  | free slot =>
    have forgets : ∀ x, ChannelWritten (.tipFree slot) d x (x.forgetSlot slot) := by
      intro x
      unfold Channel.forgetSlot
      split
      · exact
          { ChannelWritten.refl (.tipFree slot) d x with
            selectedTip := fun _ => .inr (.inr (.inr ⟨slot, rfl⟩)) }
      · exact .refl _ d x
    cases d <;> exact forgets _
  | nothing => exact unchanged
  | _ => cases d <;> exact unchanged

theorem MachineWritten.answered {i : Instr} {s u t : State} (hi : i.isHost = true) (h : Answered u t)
    (hu : MachineWritten i s u) : MachineWritten i s t := by
  unfold Answered at h
  rw [h]
  exact { hu with answer := fun _ => hi }

theorem Answered.chan {u t : State} (h : Answered u t) (c : Chan) : t.chan c = u.chan c := by
  unfold Answered at h
  rw [h]
  cases c <;> rfl

/-! Events -/

theorem State.evZc_machineWritten (s : State) : MachineWritten .evZc s s.evZc := by
  have frame : let t := s.evZc
      t = { s with
        ch0 := t.ch0, ch1 := t.ch1, refreshCnt := t.refreshCnt, reportCnt := t.reportCnt, logReq := t.logReq
        refreshReq := t.refreshReq, overrun := t.overrun, timerArmed := t.timerArmed, tmrArm := t.tmrArm } := by
    unfold State.evZc State.zcArm
    repeat' split
    all_goals rfl
  rw [frame]
  exact
    { MachineWritten.refl .evZc s with
      overrun := fun _ => .inl rfl
      timerArmed := fun _ => .inl rfl
      tmrArm := fun _ => rfl
      counters := fun _ => rfl
      refreshReq := fun _ => .inl rfl
      logReq := fun _ => .inl rfl }

/-- R221: EV.ZC clears the drives. -/
theorem State.evZc_channelWritten (s : State) (c : Chan) :
    ChannelWritten .evZc c (s.chan c) (s.evZc.chan c) := by
  have frame : s.evZc.chan c = { s.chan c with drive := (s.evZc.chan c).drive } := by
    unfold State.evZc State.zcArm
    cases c <;> repeat' split
    all_goals rfl
  rw [frame]
  exact { ChannelWritten.refl .evZc c (s.chan c) with drive := fun _ => .inl rfl }

theorem State.evTmr_machineWritten (s : State) : MachineWritten .evTmr s s.evTmr := by
  have frame : let t := s.evTmr
      t = { s with
        ch0 := t.ch0, ch1 := t.ch1, timerArmed := t.timerArmed, adcBusy := t.adcBusy, qIdx := t.qIdx
        adcMux := t.adcMux, adcStart := t.adcStart, q := t.q, qLen := t.qLen } := by
    unfold State.evTmr
    dsimp only
    repeat' split
    all_goals rfl
  rw [frame]
  exact
    { MachineWritten.refl .evTmr s with
      timerArmed := fun _ => .inr rfl
      conversion := fun _ => .inl rfl
      queue := fun _ => rfl }

theorem State.ctrlUpdate_chan (s : State) (c : Chan) : s.ctrlUpdate.chan c = (s.chan c).update s.cfg s.tips := by
  cases c <;> rfl

theorem State.seqBuild_chan (s : State) (c : Chan) : s.seqBuild.chan c = ((s.chan c).buildPart s.cfg).2 := by
  cases c <;> rfl

theorem State.evTmr_channelWritten (s : State) (c : Chan) :
    ChannelWritten .evTmr c (s.chan c) (s.evTmr.chan c) := by
  unfold State.evTmr
  split
  · exact .refl _ c _
  split
  · exact .refl _ c _
  dsimp only
  have disarmed : State.chan { s with timerArmed := false } c = s.chan c := by cases c <;> rfl
  split
  · rw [State.ctrlUpdate_chan, State.seqBuild_chan, disarmed]
    exact .built ((TurnWrites.update _ _ _).written (.inl rfl))
  · have next (u : State) : u.seqNext.chan c = u.chan c := by cases c <;> rfl
    rw [next, State.seqBuild_chan, disarmed]
    exact .built (.refl _ c _)

theorem State.adcAdvance_frame (s : State) : let t := s.adcAdvance
    t = { s with
      ch0 := t.ch0, ch1 := t.ch1, adcBusy := t.adcBusy, qIdx := t.qIdx, adcMux := t.adcMux
      adcStart := t.adcStart } := by
  unfold State.adcAdvance
  dsimp only
  split <;> rfl

theorem State.evAdc_machineWritten (tag : MuxCode) (raw : BitVec 16) (s : State) :
    MachineWritten (.evAdc tag raw) s (s.evAdc tag raw) := by
  have conversion : IsConversion (.evAdc tag raw) := ⟨tag, raw, rfl⟩
  have unchanged := MachineWritten.refl (.evAdc tag raw) s
  rcases State.evAdc_cases tag raw s with ⟨-, h⟩ | h | ⟨-, -, -, h | ⟨u, taken, h⟩⟩ <;> rw [h]
  · exact unchanged
  · exact { unchanged with trap := fun _ => .inl conversion }
  · exact { unchanged with trap := fun _ => .inl conversion, conversion := fun _ => .inr conversion }
  · rw [State.adcAdvance_frame, taken.frame]
    exact { unchanged with conversion := fun _ => .inr conversion, tips := fun _ => .inl conversion }

theorem SampleTaken.keepsSettings {c : Chan} {raw : BitVec 16} {s u : State} (h : SampleTaken c raw s u)
    (d : Chan) : KeepsSettings (s.chan d) (u.chan d) := by
  have hset : ∀ y, KeepsSettings (s.chan c) y → KeepsSettings (s.chan d) ((s.setChan c y).chan d) := by
    intro y hy
    rw [State.chan_setChan]
    split
    · next hd => exact hd ▸ hy
    · rfl
  cases h with
  | dropped => rfl
  | identified =>
    have put (r : Channel × List TipRecord) : (s.putChannel c r).chan d = (s.setChan c r.1).chan d := by
      cases c <;> cases d <;> rfl
    rw [put]
    exact hset _ ((KeepsSettings.keptByIdentification s.cfg (s.chan c)).ident (.refl _) s.tips _)
  | averaged slot => exact hset _ (.takeSample s.cfg slot raw _)

theorem State.evAdc_channelWritten (tag : MuxCode) (raw : BitVec 16) (s : State) (c : Chan) :
    ChannelWritten (.evAdc tag raw) c (s.chan c) ((s.evAdc tag raw).chan c) := by
  have conversion : IsConversion (.evAdc tag raw) := ⟨tag, raw, rfl⟩
  have idle : State.chan { s with adcBusy := false } c = s.chan c := by cases c <;> rfl
  refine KeepsSettings.written ?_ conversion
  rcases State.evAdc_cases tag raw s with ⟨-, h⟩ | h | ⟨-, -, -, h | ⟨u, taken, h⟩⟩ <;> rw [h]
  · rfl
  · rw [State.raiseFatal_chan]
    rfl
  · rw [State.raiseFatal_chan, idle]
    rfl
  · have hu := taken.keepsSettings c
    rw [idle] at hu
    unfold State.adcAdvance
    dsimp only
    split
    · cases c <;> exact hu
    · rw [State.ctrlUpdate_chan]
      have start : State.chan { u with qIdx := 0 } c = u.chan c := by cases c <;> rfl
      rw [start]
      exact hu.turn (.update _ _ _)

theorem State.evOc_machineWritten (s : State) : MachineWritten .evOc s s.evOc := by
  unfold State.evOc
  split
  · exact .refl _ s
  · exact { MachineWritten.refl .evOc s with refreshReq := fun _ => .inr (.inl rfl) }

/-- R198, R229. -/
theorem State.evOc_channelWritten (s : State) (c : Chan) : ChannelWritten .evOc c (s.chan c) (s.evOc.chan c) := by
  have overloaded (x : Channel) : ChannelWritten .evOc c x x.setOverload :=
    { ChannelWritten.refl .evOc c x with
      state := fun _ => .inr (.inl rfl)
      drive := fun _ => .inr (.inr (.inl rfl))
      control := fun _ => .inr (.inl rfl) }
  unfold State.evOc
  split
  · exact .refl _ c _
  · cases c <;> exact overloaded _

/-! Every operation -/

/-- The columns of every operation issued from outside but EV.RST. -/
theorem exec_written {i : Instr} {s t : State} (hi : i.issuable = true) (hrst : i ≠ .evRst)
    (h : exec i s = .next t) : MachineWritten i s t ∧ ∀ c, ChannelWritten i c (s.chan c) (t.chan c) := by
  rcases isHost_or_event hi with hhost | rfl | rfl | rfl | ⟨tag, raw, rfl⟩ | rfl
  · obtain ⟨u, heffect, hanswer⟩ := exec_host_carriedOut hhost h
    refine ⟨heffect.machineWritten.answered hhost hanswer, fun c => ?_⟩
    rw [hanswer.chan]
    exact heffect.channelWritten c
  · exact absurd rfl hrst
  · cases h; exact ⟨s.evZc_machineWritten, s.evZc_channelWritten⟩
  · cases h; exact ⟨s.evTmr_machineWritten, s.evTmr_channelWritten⟩
  · rw [execEvAdc_eq h]; exact ⟨s.evAdc_machineWritten tag raw, s.evAdc_channelWritten tag raw⟩
  · cases h; exact ⟨s.evOc_machineWritten, s.evOc_channelWritten⟩

/-- Settles O9: the frames of all operations, column by column. -/
theorem stateIsWrittenOnlyByItsOperations : Obligations.StateIsWrittenOnlyByItsOperations := by
  intro i s t hi hrst h
  obtain ⟨m, w⟩ := exec_written hi hrst h
  exact ⟨m.cfg, m.pend, m.chipTempIn, m.rst, m.ret, m.ctlEnabled, m.trap, m.overrun, m.answer, m.timerArmed,
    m.conversion, m.tmrArm, m.queue, m.counters, m.refreshReq, m.logReq, m.chipTemp, m.tips, fun c =>
      have w := w c
      ⟨w.state, w.iron, w.userTemp, w.curTemp, w.preset, w.idleMs, w.tip, w.identCnt, w.fixedDuty, w.drive,
        w.pins, w.settings, w.selectedTip, w.samples, w.output, w.control, w.history⟩⟩

end Sys2Proof.Machine

/-! # The stimulus word and the opcode table (R91 to R95, R110)

A format is given by the number of low bits of each field it uses. A word passes the mask of R92 exactly when it
has the row's opcode and its fields are no wider than that; so both directions of decoding and encoding are
statements about fields. -/

namespace Sys2Proof

/-! The low bits of a field -/

/-- A value cut to its low `k` bits. -/
def keepLow {n : Nat} (k : Nat) (x : BitVec n) : BitVec n := (x.setWidth k).setWidth n

@[simp] theorem keepLow_zero {n : Nat} (x : BitVec n) : keepLow 0 x = 0#n := by
  simp [keepLow, BitVec.of_length_zero]

@[simp] theorem keepLow_width {n : Nat} (x : BitVec n) : keepLow n x = x := by
  simp [keepLow]

/-- The bits from `k` up are clear exactly when cutting to `k` bits changes nothing. -/
theorem and_shiftLeft_allOnes_eq_zero_iff {n : Nat} (k : Nat) (x : BitVec n) :
    x &&& BitVec.allOnes n <<< k = 0 ↔ keepLow k x = x := by
  constructor
  · intro h
    ext i hi
    by_cases hk : i < k
    · simp [keepLow, hk, BitVec.getLsbD_eq_getElem hi]
    · simpa [keepLow, hk, hi] using (congrArg (·.getLsbD i) h).symm
  · intro h
    rw [← h]
    ext i hi
    by_cases hk : i < k <;> simp [keepLow, hk]

/-! The fields of a word (R91) -/

/-- The four fields a word holds below its opcode (R91). -/
def fieldsOf (w : StimWord) : Fields :=
  { ch := w.extractLsb' 52 4, idx := idxField w, aux := auxField w, arg := argField w }

@[simp] theorem fieldsOf_idx (w : StimWord) : (fieldsOf w).idx = idxField w := rfl
@[simp] theorem fieldsOf_aux (w : StimWord) : (fieldsOf w).aux = auxField w := rfl
@[simp] theorem fieldsOf_arg (w : StimWord) : (fieldsOf w).arg = argField w := rfl

@[simp] theorem argField_assembleWord (op : BitVec 8) (f : Fields) : argField (assembleWord op f) = f.arg :=
  BitVec.extractLsb'_append_eq_right

@[simp] theorem auxField_assembleWord (op : BitVec 8) (f : Fields) : auxField (assembleWord op f) = f.aux :=
  (BitVec.extractLsb'_append_eq_of_le (by decide)).trans BitVec.extractLsb'_append_eq_right

@[simp] theorem idxField_assembleWord (op : BitVec 8) (f : Fields) : idxField (assembleWord op f) = f.idx :=
  (BitVec.extractLsb'_append_eq_of_le (w := 32) (by decide)).trans <|
    (BitVec.extractLsb'_append_eq_of_le (by decide)).trans BitVec.extractLsb'_append_eq_right

@[simp] theorem fieldsOf_assembleWord (op : BitVec 8) (f : Fields) : fieldsOf (assembleWord op f) = f := by
  have hch : (assembleWord op f).extractLsb' 52 4 = f.ch :=
    (BitVec.extractLsb'_append_eq_of_le (w := 32) (by decide)).trans <|
      (BitVec.extractLsb'_append_eq_of_le (by decide)).trans <|
        (BitVec.extractLsb'_append_eq_of_le (by decide)).trans BitVec.extractLsb'_append_eq_right
  simp [fieldsOf, hch]

theorem assembleWord_fieldsOf (w : StimWord) : assembleWord (opField w) (fieldsOf w) = w :=
  calc
    assembleWord (opField w) (fieldsOf w)
    _ = w.extractLsb' 56 8 ++ w.extractLsb' 52 4 ++ w.extractLsb' 48 4 ++ w.extractLsb' 32 16
          ++ w.extractLsb' 0 32 := rfl
    _ = w.extractLsb' 0 64 := by
      iterate 4 rw [BitVec.extractLsb'_append_extractLsb'_eq_extractLsb' (by rfl)]
    _ = w := BitVec.extractLsb'_eq_self

theorem assembleWord_inj {a b : BitVec 8} {f g : Fields} :
    assembleWord a f = assembleWord b g ↔ a = b ∧ f = g := by
  refine ⟨fun h => ⟨?_, ?_⟩, fun ⟨hop, hf⟩ => by rw [hop, hf]⟩
  · simpa only [opField_assembleWord] using congrArg opField h
  · simpa only [fieldsOf_assembleWord] using congrArg fieldsOf h

theorem assembleWord_and (a b : BitVec 8) (f g : Fields) :
    assembleWord a f &&& assembleWord b g =
      assembleWord (a &&& b)
        { ch := f.ch &&& g.ch, idx := f.idx &&& g.idx, aux := f.aux &&& g.aux, arg := f.arg &&& g.arg } := by
  refine BitVec.and_append.trans ?_
  simp only [BitVec.and_append]
  rfl

theorem tagField_eq (w : StimWord) : tagField w = (auxField w).setWidth 8 := by
  ext i hi
  simp [tagField, auxField, show i < 16 by omega]

theorem rawField_eq (w : StimWord) : rawField w = (argField w).setWidth 16 := by
  ext i hi
  simp [rawField, argField, show i < 32 by omega]

/-- R95: of `aux` EV.ADC reads the low byte. -/
theorem tagField_setWidth (w : StimWord) : (tagField w).setWidth 16 = keepLow 8 (auxField w) :=
  congrArg (BitVec.setWidth 16) (tagField_eq w)

/-- R95: of `arg` EV.ADC reads the low half. -/
theorem rawField_setWidth (w : StimWord) : (rawField w).setWidth 32 = keepLow 16 (argField w) :=
  congrArg (BitVec.setWidth 32) (rawField_eq w)

theorem chanField_eq (w : StimWord) :
    chanField w = if (fieldsOf w).ch.getLsbD 0 then .ch1 else .ch0 := by
  simp [chanField, fieldsOf]

/-- The `ch` field of a channel reads back as that channel. -/
@[simp] theorem chanField_assembleWord (op : BitVec 8) (c : Chan) (idx : BitVec 4) (aux : BitVec 16)
    (arg : BitVec 32) : chanField (assembleWord op { ch := c.field, idx, aux, arg }) = c := by
  have low : (if c.field.getLsbD 0 then Chan.ch1 else Chan.ch0) = c := by cases c <;> rfl
  rw [chanField_eq, fieldsOf_assembleWord]
  exact low

/-- R95: of the `ch` field only the low bit is read. -/
theorem chanField_field (w : StimWord) : (chanField w).field = keepLow 1 (fieldsOf w).ch := by
  have low : ∀ ch : BitVec 4, (if ch.getLsbD 0 then Chan.ch1 else Chan.ch0).field = keepLow 1 ch := by decide
  rw [chanField_eq]
  exact low _

/-! The formats (R92) -/

/-- How many low bits of each field a format uses. -/
structure UsedBits where
  ch : Nat := 0
  idx : Nat := 0
  aux : Nat := 0
  arg : Nat := 0

/-- The bits below the opcode that a format's mask leaves free (R92). -/
def Format.used : Format → UsedBits
  | .e0 | .h0 => { }
  | .ea => { aux := 8, arg := 16 }
  | .hc => { ch := 1 }
  | .hci => { ch := 1, idx := 4 }
  | .hca => { ch := 1, arg := 32 }
  | .hcixa => { ch := 1, idx := 4, aux := 16, arg := 32 }
  | .hx => { aux := 16 }
  | .hxa => { aux := 16, arg := 32 }
  | .int => { ch := 4, idx := 4, aux := 16, arg := 32 }

/-- The fields cut to the bits a format uses. -/
def Fields.cut (f : Fields) (u : UsedBits) : Fields :=
  { ch := keepLow u.ch f.ch, idx := keepLow u.idx f.idx, aux := keepLow u.aux f.aux, arg := keepLow u.arg f.arg }

theorem Format.mask_eq (φ : Format) :
    φ.mask = assembleWord (BitVec.allOnes 8)
      { ch := BitVec.allOnes 4 <<< φ.used.ch, idx := BitVec.allOnes 4 <<< φ.used.idx
        aux := BitVec.allOnes 16 <<< φ.used.aux, arg := BitVec.allOnes 32 <<< φ.used.arg } := by
  cases φ <;> rfl

theorem Row.pattern_eq (r : Row) : r.pattern = assembleWord r.op { } := by
  have hop : opField r.pattern = r.op := by
    ext i hi
    simp [opField, Row.pattern, show 56 + i < 64 by omega, BitVec.getLsbD_eq_getElem hi]
  have hlow (start len : Nat) (h : start + len ≤ 56) : r.pattern.extractLsb' start len = 0#len := by
    ext i hi
    simp only [Row.pattern, BitVec.getElem_extractLsb', BitVec.getLsbD_shiftLeft]
    simp [show start + i < 56 by omega]
  rw [← assembleWord_fieldsOf r.pattern, hop]
  simp [fieldsOf, idxField, auxField, argField, hlow]

/-- Step 3 of R93: a word passes a row's mask when it has the row's opcode and no field is wider than the bits
the row's format uses. -/
theorem and_mask_eq_pattern_iff (w : StimWord) (r : Row) :
    w &&& r.format.mask = r.pattern ↔ opField w = r.op ∧ (fieldsOf w).cut r.format.used = fieldsOf w := by
  conv_lhs =>
    rw [← assembleWord_fieldsOf w, r.format.mask_eq, r.pattern_eq, assembleWord_and, assembleWord_inj]
  rw [BitVec.and_allOnes, Fields.mk.injEq]
  simp only [and_shiftLeft_allOnes_eq_zero_iff]
  exact and_congr_right fun _ => (iff_of_eq (Fields.mk.injEq ..)).symm

/-! The rows (R94) -/

theorem opcodeTable_ops_nodup : (opcodeTable.map Row.op).Nodup := by decide

theorem rowOf_eq_some_iff {op : BitVec 8} {r : Row} : rowOf op = some r ↔ r ∈ opcodeTable ∧ r.op = op := by
  constructor
  · intro h
    exact ⟨List.mem_of_find?_eq_some h, by simpa using List.find?_some h⟩
  · rintro ⟨hr, rfl⟩
    cases hq : rowOf r.op with
    | none => exact absurd (beq_self_eq_true r.op) (List.find?_eq_none.1 hq r hr)
    | some q =>
      have hqop : q.op = r.op := by simpa using List.find?_some hq
      rw [List.inj_on_of_nodup_map opcodeTable_ops_nodup (List.mem_of_find?_eq_some hq) hr hqop]

theorem rowOf_eq_none_iff {op : BitVec 8} : rowOf op = none ↔ ∀ r ∈ opcodeTable, r.op ≠ op := by
  simp [rowOf]

/-- A row builds an operation of its own opcode. -/
theorem Row.opcode_build {r : Row} (hr : r ∈ opcodeTable) (w : StimWord) : (r.build w).opcode = r.op := by
  revert r
  simp only [opcodeTable, eventRows, hostRows, internalRows, List.forall_mem_append, List.forall_mem_cons,
    List.not_mem_nil, false_imp_iff, implies_true, and_true]
  and_intros <;> rfl

/-- A row of an operation that can be issued builds from the bits its format uses, and from nothing else. -/
theorem Row.fields_build {r : Row} (hr : r ∈ eventRows ++ hostRows) (w : StimWord) :
    (r.build w).fields = (fieldsOf w).cut r.format.used := by
  revert r
  simp only [eventRows, hostRows, List.forall_mem_append, List.forall_mem_cons, List.not_mem_nil, false_imp_iff,
    implies_true, and_true]
  and_intros <;>
    simp [Instr.fields, Format.used, Fields.cut, chanField_field, tagField_setWidth, rawField_setWidth]

/-- The rows from 0x80 on build internal operations (R94). -/
theorem Row.isInternal_build {r : Row} (hr : r ∈ internalRows) (w : StimWord) : (r.build w).isInternal = true := by
  have high : ∀ r ∈ internalRows, 0x80 ≤ r.op.toNat := by decide
  rw [Instr.isInternal, Row.opcode_build (List.mem_append_right _ hr)]
  exact decide_eq_true (high r hr)

/-! The decoder (R93) -/

theorem decode_of_mem {w : StimWord} {r : Row} (hr : r ∈ opcodeTable) (hop : r.op = opField w) :
    decode w = if w &&& r.format.mask = r.pattern then .ok (r.build w) else .error (.mustBeZero r.mnemonic) := by
  simp [decode, rowOf_eq_some_iff.2 ⟨hr, hop⟩]

theorem decode_of_reserved {w : StimWord} (h : ∀ r ∈ opcodeTable, r.op ≠ opField w) :
    decode w = .error (.reservedOpcode (opField w)) := by
  simp [decode, rowOf_eq_none_iff.2 h]

/-- What a word that decodes can be: a word that passes the mask of a row, read by that row. -/
theorem decode_ok {w : StimWord} {i : Instr} (h : decode w = .ok i) :
    ∃ r ∈ opcodeTable, w &&& r.format.mask = r.pattern ∧ r.build w = i := by
  cases hrow : rowOf (opField w) with
  | none => rw [decode_of_reserved (rowOf_eq_none_iff.1 hrow)] at h; cases h
  | some r =>
    obtain ⟨hr, hop⟩ := rowOf_eq_some_iff.1 hrow
    rw [decode_of_mem hr hop] at h
    split at h
    · next hmask => exact ⟨r, hr, hmask, Except.ok.inj h⟩
    · cases h

/-- Settles O2: the decoder takes the row of the opcode, and the row's mask decides. -/
theorem decodingFollowsTheTable : Obligations.DecodingFollowsTheTable := by
  intro w
  refine ⟨decode_of_reserved, fun r hr hop => ?_⟩
  rw [decode_of_mem hr hop]
  exact ⟨fun hmask => if_neg hmask, fun hmask => if_pos hmask⟩

/-- The operation a word decodes to has the word's opcode. -/
theorem decode_opcode {w : StimWord} {i : Instr} (h : decode w = .ok i) : i.opcode = opField w := by
  obtain ⟨r, hr, hmask, rfl⟩ := decode_ok h
  rw [Row.opcode_build hr, ((and_mask_eq_pattern_iff w r).1 hmask).1]

/-! The encoder (R110) -/

theorem Instr.isInternal_eq_false {i : Instr} (h : i.issuable = true) : i.isInternal = false := by
  simp only [Instr.issuable, Instr.isEvent, Instr.isHost, Bool.or_eq_true, Bool.and_eq_true,
    decide_eq_true_eq] at h
  simp only [Instr.isInternal, decide_eq_false_iff_not]
  omega

theorem Row.mem_of_issuable {r : Row} {w : StimWord} (hr : r ∈ opcodeTable)
    (h : (r.build w).issuable = true) : r ∈ eventRows ++ hostRows :=
  (List.mem_append.1 hr).resolve_right fun hint => by
    simpa [Row.isInternal_build hint w] using Instr.isInternal_eq_false h

theorem rowOf_opcode (i : Instr) : ∃ r, rowOf i.opcode = some r := by
  cases i <;> exact ⟨_, rfl⟩

/-- The row of an operation that can be issued builds the operation from the operation's own word. -/
theorem Instr.build_encode {i : Instr} (h : i.issuable = true) :
    ∃ r ∈ opcodeTable, r.op = i.opcode ∧ r.build (encode i) = i := by
  suffices hrow : ∃ r, rowOf i.opcode = some r ∧ r.build (encode i) = i by
    obtain ⟨r, hr, hbuild⟩ := hrow
    obtain ⟨hmem, hop⟩ := rowOf_eq_some_iff.1 hr
    exact ⟨r, hmem, hop, hbuild⟩
  cases i with
  | evRst | evZc | evTmr | evOc | ctlEnable | ctlDisable | ctlToggle | ctlChiptemp => exact ⟨_, rfl, rfl⟩
  | evAdc tag raw => exact ⟨_, rfl, by simp [encode, Instr.fields, tagField_eq, rawField_eq]⟩
  | chSetstate | chSettemp | chNextpreset | chChangetip | chInteract | chFixedpwr | chGetstate | chGetcur
  | chGettgt | chGetpwr | chIsmod | calSave | calSet | calGett | calGetm | calInst | tipAlloc | tipFree
  | tipFind | regRd | regWr => exact ⟨_, rfl, by simp [encode, Instr.fields]⟩
  | _ => cases h

/-- A word that holds an operation's fields passes the mask of a row that uses all their bits. -/
theorem decode_encode_of_mem {i : Instr} {r : Row} (hr : r ∈ opcodeTable) (hop : r.op = i.opcode)
    (hcut : i.fields.cut r.format.used = i.fields) : decode (encode i) = .ok (r.build (encode i)) := by
  have hopField : opField (encode i) = r.op := (opField_assembleWord _ _).trans hop.symm
  have hfields : fieldsOf (encode i) = i.fields := fieldsOf_assembleWord _ _
  rw [decode_of_mem hr hopField.symm,
    if_pos ((and_mask_eq_pattern_iff _ r).2 ⟨hopField, by rw [hfields, hcut]⟩)]

theorem decode_encode {i : Instr} (h : i.issuable = true) : decode (encode i) = .ok i := by
  obtain ⟨r, hr, hop, hbuild⟩ := i.build_encode h
  have hcut := Row.fields_build (Row.mem_of_issuable hr (hbuild.symm ▸ h)) (encode i)
  rw [hbuild, encode, fieldsOf_assembleWord] at hcut
  rw [decode_encode_of_mem hr hop hcut.symm, hbuild]

theorem Instr.fields_of_isInternal {i : Instr} (h : i.isInternal = true) : i.fields = { } := by
  cases i with
  | dccSet | dccAdv | dccIson | ctlLoad | ctlEn | pidStep | tbhStep | muxMake | muxTag | muxStrip | measSeq
  | measProc | measTemp | measItemp | measUpd | measDrive | chIdent | chSetiron | chTipsel | chIdle
  | chOverload | chUpddrive | chProc | chSetst | seqBuild | seqNext | ctrlUpdate | trapFatal => rfl
  | _ => cases h

/-- R92: an internal operation's word holds its opcode alone, so it decodes to that opcode. -/
theorem decode_encode_of_isInternal {i : Instr} (h : i.isInternal = true) :
    ∃ j, decode (encode i) = .ok j ∧ j.opcode = i.opcode := by
  obtain ⟨r, hrow⟩ := rowOf_opcode i
  obtain ⟨hr, hop⟩ := rowOf_eq_some_iff.1 hrow
  have hdecode := decode_encode_of_mem hr hop (by simp [i.fields_of_isInternal h, Fields.cut, keepLow])
  exact ⟨_, hdecode, (Row.opcode_build hr _).trans hop⟩

/-- A word that decodes to an operation that can be issued holds nothing but what the operation says. -/
theorem encode_of_decode {w : StimWord} {i : Instr} (h : decode w = .ok i) (hi : i.issuable = true) :
    encode i = w := by
  have hop := decode_opcode h
  obtain ⟨r, hr, hmask, rfl⟩ := decode_ok h
  obtain ⟨-, hcut⟩ := (and_mask_eq_pattern_iff w r).1 hmask
  rw [encode, hop, Row.fields_build (Row.mem_of_issuable hr hi), hcut, assembleWord_fieldsOf]

/-- Settles O1: decoding undoes encoding row by row, and a word's opcode and fields are all there is to it. -/
theorem decodeEncodeAgree : Obligations.DecodeEncodeAgree :=
  ⟨fun _ => ⟨decode_encode, decode_encode_of_isInternal⟩, fun _ _ => encode_of_decode⟩

/-- Settles O3: the printed words, evaluated. -/
theorem printedWordsDecode : Obligations.PrintedWordsDecode :=
  ⟨rfl, rfl, rfl, rfl, rfl, rfl, rfl, rfl, rfl, rfl⟩

end Sys2Proof

/-! # The mux codes (R100 to R105) -/

namespace Sys2Proof.Machine

/-- R100, R101: the places of the five flags; the bits above them are clear. -/
theorem muxMake_bits (ch sub amp bias boost : Bool) :
    let m := muxMake ch sub amp bias boost
    m.getLsbD 0 = ch ∧ m.getLsbD 1 = sub ∧ m.getLsbD 2 = amp ∧ m.getLsbD 3 = bias ∧ m.getLsbD 4 = boost
      ∧ m.extractLsb' 5 3 = 0 := by
  revert ch sub amp bias boost
  decide

/-- A code of five flags is composed from its flags (R100): all 256 codes are checked. -/
theorem muxMake_of_codeBits {m : MuxCode} (h : codeBits m = true) :
    muxMake (m.getLsbD 0) (m.getLsbD 1) (m.getLsbD 2) (m.getLsbD 3) (m.getLsbD 4) = m := by
  revert m
  decide

/-- R102, R103: stripping undoes tagging an untagged code; all 256 codes are checked under both channels. -/
theorem muxStrip_muxTag {m : MuxCode} (c : Chan) (h : untagged m = true) :
    muxStrip (muxTag m c) = m ∧ chanOf (muxTag m c) = c := by
  revert m
  cases c <;> decide

/-- Settles O4: the three operations by their definitions, the codes by their bits. -/
theorem muxCodesComposeTagAndStrip : Obligations.MuxCodesComposeTagAndStrip := by
  refine ⟨fun ch sub amp bias boost s => ⟨_, rfl, muxMake_bits ch sub amp bias boost⟩, fun m c s => ?_,
    fun _ _ => rfl, fun m h => ⟨_, _, _, _, _, muxMake_of_codeBits h⟩, fun m c h => muxStrip_muxTag c h⟩
  cases c <;> rfl

end Sys2Proof.Machine

/-! # The step of a word (R6, R90, R96, R97) -/

namespace Sys2Proof.Machine

/-! The stimulus a step takes -/

/-- With a legal configuration the step runs the operation its stimulus asks for. -/
theorem step_of_instr {s : State} {st : Stimulus} {i : Instr} (hc : configLegal s.cfg = true)
    (hst : s.nextStimulus = some st) (hi : st.instr = some i) : step s = exec i (s.beginStep st) := by
  simp [step, hc, hst, hi]

/-- With a legal configuration a stimulus that asks for no operation is turned away. -/
theorem step_of_no_instr {s : State} {st : Stimulus} (hc : configLegal s.cfg = true)
    (hst : s.nextStimulus = some st) (hi : st.instr = none) : step s = .next (s.beginStep st).rejectIllegal := by
  simp [step, hc, hst, hi]

theorem State.nextStimulus_of_not_rst {s : State} (h : s.rst = false) : s.nextStimulus = s.pend.first := by
  simp [State.nextStimulus, h]

/-- The command port takes the host command a word decodes to. -/
theorem commandInstr_of_isHost {w : StimWord} {i : Instr} (h : decode w = .ok i) (hi : i.isHost = true) :
    commandInstr w = some i := by
  simp [commandInstr, h, hi]

/-- The command port takes nothing from a word that decodes to no host command (R96). -/
theorem commandInstr_eq_none {w : StimWord} (h : ∀ i, decode w = .ok i → i.isHost = false) :
    commandInstr w = none := by
  unfold commandInstr
  split
  · next i hi => simp [h i hi]
  · rfl

/-- A host command's word stands on the command port (R90). -/
theorem wordPending_of_isHost {w : StimWord} {i : Instr} (h : decode w = .ok i) (hi : i.isHost = true) :
    wordPending w = { Pending.clear with cmd := some w } := by
  unfold wordPending
  rw [h]
  cases i with
  | evRst | evZc | evTmr | evAdc | evOc => cases hi
  | _ => rfl

/-- R90: the one latch a word sets is a stimulus that asks for the operation the word decodes to, and taking
it leaves every latch clear. -/
theorem wordPending_first {w : StimWord} {i : Instr} (h : decode w = .ok i) (hi : i.issuable = true) :
    ∃ st, (wordPending w).first = some st ∧ st.instr = some i ∧ (wordPending w).take st = Pending.clear := by
  rcases isHost_or_event hi with hhost | rfl | rfl | rfl | ⟨tag, raw, rfl⟩ | rfl
  · rw [wordPending_of_isHost h hhost]
    exact ⟨.cmd w, rfl, commandInstr_of_isHost h hhost, rfl⟩
  · rw [wordPending, h]; exact ⟨.rst, rfl, rfl, rfl⟩
  · rw [wordPending, h]; exact ⟨.zc, rfl, rfl, rfl⟩
  · rw [wordPending, h]; exact ⟨.tmr, rfl, rfl, rfl⟩
  · rw [wordPending, h]; exact ⟨.adc tag raw, rfl, rfl, rfl⟩
  · rw [wordPending, h]; exact ⟨.oc, rfl, rfl, rfl⟩

/-- Settles O5: the word's latch is the first pending stimulus, and the only one. -/
theorem stepRunsTheDecodedOperation : Obligations.StepRunsTheDecodedOperation := by
  intro s w i hc hdecode hi
  obtain ⟨st, hfirst, hinstr, htake⟩ := wordPending_first hdecode hi
  have hnext : (s.present w).nextStimulus = some st := (State.nextStimulus_of_not_rst rfl).trans hfirst
  refine (step_of_instr (s := s.present w) hc hnext hinstr).trans ?_
  simp only [State.beginStep, State.dropPulses, State.present, htake]

/-! Words that are no host command (R96) -/

theorem step_rejects_command {s : State} {w : StimWord} (hc : configLegal s.cfg = true) (hr : s.rst = false)
    (hfirst : s.pend.first = some (.cmd w)) (h : ∀ i, decode w = .ok i → i.isHost = false) :
    step s = .next (s.beginStep (.cmd w)).rejectIllegal :=
  step_of_no_instr hc ((State.nextStimulus_of_not_rst hr).trans hfirst) (commandInstr_eq_none h)

/-- The opcodes R96 lists as reserved, the opcode of the all-zero word with them. -/
abbrev ReservedOpcode (op : Nat) : Prop :=
  op = 0x00 ∨ (0x06 ≤ op ∧ op ≤ 0x0F) ∨ (0x14 ≤ op ∧ op ≤ 0x1F) ∨ (0x2B ≤ op ∧ op ≤ 0x2F)
    ∨ (0x35 ≤ op ∧ op ≤ 0x3F) ∨ (0x43 ≤ op ∧ op ≤ 0x4F) ∨ (0x52 ≤ op ∧ op ≤ 0x7F)
    ∨ (0x83 ≤ op ∧ op ≤ 0x87) ∨ (0x8C ≤ op ∧ op ≤ 0x8F) ∨ (0x93 ≤ op ∧ op ≤ 0x97)
    ∨ (0x9E ≤ op ∧ op ≤ 0x9F) ∨ (0xA8 ≤ op ∧ op ≤ 0xAF) ∨ (0xB3 ≤ op ∧ op ≤ 0xBE)
    ∨ 0xC0 ≤ op

theorem not_reservedOpcode_of_mem {r : Row} (hr : r ∈ opcodeTable) : ¬ ReservedOpcode r.op.toNat := by
  have all : ∀ r ∈ opcodeTable, ¬ ReservedOpcode r.op.toNat := by decide
  exact all r hr

theorem decode_of_reservedOpcode {w : StimWord} (h : ReservedOpcode (opField w).toNat) :
    decode w = .error (.reservedOpcode (opField w)) :=
  decode_of_reserved fun r hr hop => not_reservedOpcode_of_mem hr (by rwa [hop])

theorem decode_isInternal {w : StimWord} {i : Instr} (hop : 0x80 ≤ (opField w).toNat) (h : decode w = .ok i) :
    i.isInternal = true := by
  rw [Instr.isInternal, decode_opcode h]
  exact decide_eq_true hop

/-! Streams (R97) -/

theorem streamRefusal_of_issuable {w : StimWord} {i : Instr} (h : decode w = .ok i) (hi : i.issuable = true) :
    streamRefusal w = none := by
  simp [streamRefusal, h, Instr.isInternal_eq_false hi]

theorem streamRefusal_isSome {w : StimWord}
    (h : (∃ e, decode w = .error e) ∨ ∃ i, decode w = .ok i ∧ i.isInternal = true) :
    (streamRefusal w).isSome = true := by
  rcases h with ⟨e, he⟩ | ⟨i, hi, hint⟩
  · simp [streamRefusal, he]
  · simp [streamRefusal, hi, hint]

/-- A stream with an illegal or internal word is refused whole. -/
theorem runStream_refused {ws : List StimWord} (s : State)
    (h : ∃ w ∈ ws, (∃ e, decode w = .error e) ∨ ∃ i, decode w = .ok i ∧ i.isInternal = true) :
    ∃ r, runStream ws s = .refused r := by
  obtain ⟨w, hw, hbad⟩ := h
  have hsome : (ws.findSome? streamRefusal).isSome = true :=
    List.findSome?_isSome_iff.2 ⟨w, hw, streamRefusal_isSome hbad⟩
  obtain ⟨r, hr⟩ := Option.isSome_iff_exists.1 hsome
  exact ⟨r, by rw [runStream, hr]⟩

/-- A stream of words that can all be issued is run word by word. -/
theorem runStream_eq_runWords {ws : List StimWord} (s : State)
    (h : ∀ v ∈ ws, ∃ i, decode v = .ok i ∧ i.issuable = true) : runStream ws s = runWords ws s := by
  have hnone : ws.findSome? streamRefusal = none := List.findSome?_eq_none_iff.2 fun v hv => by
    obtain ⟨i, hdecode, hi⟩ := h v hv
    exact streamRefusal_of_issuable hdecode hi
  rw [runStream, hnone]

/-- One word of such a stream is one step (log 16). -/
theorem runStream_cons {w : StimWord} {ws : List StimWord} (s : State)
    (h : ∀ v ∈ w :: ws, ∃ i, decode v = .ok i ∧ i.issuable = true) :
    runStream (w :: ws) s =
      match step (s.present w) with
      | .next t => runStream ws t
      | .fault r => .fault r
      | .refused r => .refused r := by
  have htail (t : State) : runStream ws t = runWords ws t :=
    runStream_eq_runWords t fun v hv => h v (List.mem_cons_of_mem w hv)
  rw [runStream_eq_runWords s h, runWords]
  cases step (s.present w) with
  | next t => exact (htail t).symm
  | fault r => rfl
  | refused r => rfl

theorem exec_evAdc_refused {tag : BitVec 8} {raw : BitVec 16} {s : State} (h : s.cfg.adcFs < raw.toNat) :
    exec (.evAdc tag raw) s = .refused .rawBeyondFullScale :=
  if_pos h

/-- Settles O7: the words the command port rejects, and the streams that are refused. -/
theorem otherWordsAreTurnedAway : Obligations.OtherWordsAreTurnedAway :=
  ⟨⟨fun _ _ hc hr hfirst h => step_rejects_command hc hr hfirst h, fun _ => decode_of_reservedOpcode,
      fun _ hop _ h => decode_isInternal hop h⟩,
    fun _ s h => runStream_refused s h, fun _ _ _ => exec_evAdc_refused, fun _ _ s h => runStream_cons s h⟩

end Sys2Proof.Machine

/-! # The duty-cycle counter (R120 to R124) -/

namespace Sys2Proof.Machine

/-! One tick of a channel -/

section Tick

variable {ch : Channel}

/-- R122: an on-tick takes 100 out of the accumulator. -/
theorem Channel.dccAdv_of_le (h : 100 ≤ ch.acc.toNat + ch.duty.toNat) :
    ch.dccAdv = { ch with on := true, acc := BitVec.ofNat 7 (ch.acc.toNat + ch.duty.toNat - 100) } :=
  if_pos h

/-- R122: an off-tick only adds the duty. -/
theorem Channel.dccAdv_of_lt (h : ch.acc.toNat + ch.duty.toNat < 100) :
    ch.dccAdv = { ch with on := false, acc := BitVec.ofNat 7 (ch.acc.toNat + ch.duty.toNat) } :=
  if_neg (Nat.not_le.2 h)

theorem Channel.dccAdv_duty (ch : Channel) : ch.dccAdv.duty = ch.duty := by rw [Channel.dccAdv_frame]

/-- R124: a tick adds the duty to the accumulator and takes out 100 if it is on; nothing is lost in 7 bits. -/
theorem Channel.dccAdv_balance (hacc : ch.acc.toNat < 100) (hduty : ch.duty.toNat ≤ 100) :
    100 * ch.dccAdv.on.toNat + ch.dccAdv.acc.toNat = ch.duty.toNat + ch.acc.toNat := by
  rcases Nat.lt_or_ge (ch.acc.toNat + ch.duty.toNat) 100 with h | h
  · rw [Channel.dccAdv_of_lt h]
    simp only [Bool.toNat_false, BitVec.toNat_ofNat]
    omega
  · rw [Channel.dccAdv_of_le h]
    simp only [Bool.toNat_true, BitVec.toNat_ofNat]
    omega

/-- R30: a tick keeps the accumulator below 100. -/
theorem Channel.dccAdv_acc_lt (hacc : ch.acc.toNat < 100) (hduty : ch.duty.toNat ≤ 100) :
    ch.dccAdv.acc.toNat < 100 := by
  rcases Nat.lt_or_ge (ch.acc.toNat + ch.duty.toNat) 100 with h | h
  · rw [Channel.dccAdv_of_lt h, BitVec.toNat_ofNat]
    omega
  · rw [Channel.dccAdv_of_le h, BitVec.toNat_ofNat]
    omega

end Tick

/-! Runs of ticks -/

theorem exec_dccAdv (c : Chan) (s : State) : exec (.dccAdv c) s = .next (s.updChan c Channel.dccAdv) := rfl

/-- The first of `n + 1` ticks decides for itself; the others start from the channel it leaves. -/
theorem dccTicks_succ (c : Chan) (n : Nat) (s : State) :
    dccTicks c (n + 1) s =
      ((s.chan c).dccAdv.on :: (dccTicks c n (s.updChan c Channel.dccAdv)).1,
        (dccTicks c n (s.updChan c Channel.dccAdv)).2) := by
  simp only [dccTicks, exec_dccAdv, State.chan_updChan]

theorem countP_id_cons (b : Bool) (l : List Bool) : (b :: l).countP id = b.toNat + l.countP id := by
  cases b <;> simp [Nat.add_comm]

/-- R124: `n` ticks add `n` times the duty and take out 100 for each on-tick; the accumulator stays below 100. -/
theorem dccTicks_balance (c : Chan) (n : Nat) {s : State} (hacc : (s.chan c).acc.toNat < 100)
    (hduty : (s.chan c).duty.toNat ≤ 100) :
    100 * (dccTicks c n s).1.countP id + ((dccTicks c n s).2.chan c).acc.toNat
        = (s.chan c).duty.toNat * n + (s.chan c).acc.toNat
      ∧ ((dccTicks c n s).2.chan c).acc.toNat < 100 := by
  induction n generalizing s with
  | zero => simpa [dccTicks] using hacc
  | succ n ih =>
    have hchan : (s.updChan c Channel.dccAdv).chan c = (s.chan c).dccAdv := State.chan_updChan s c _
    obtain ⟨hrest, hlt⟩ := ih (s := s.updChan c Channel.dccAdv)
      (by rw [hchan]; exact Channel.dccAdv_acc_lt hacc hduty)
      (by rwa [hchan, Channel.dccAdv_duty])
    rw [hchan, Channel.dccAdv_duty] at hrest
    have htick := Channel.dccAdv_balance hacc hduty
    rw [dccTicks_succ]
    simp only [countP_id_cons, Nat.mul_succ]
    exact ⟨by omega, hlt⟩

/-- Settles O22: over `100 * k` ticks the accumulator changes by a multiple of 100 and stays below 100, so it
does not change at all. -/
theorem dutyIsExactOverWindows : Obligations.DutyIsExactOverWindows := by
  intro c s hacc hduty
  refine ⟨fun k => ?_, fun n => (dccTicks_balance c n hacc hduty).1⟩
  obtain ⟨hbal, hlt⟩ := dccTicks_balance c (100 * k) hacc hduty
  rw [Nat.mul_left_comm] at hbal
  omega

/-- Settles O21: each operation by its definition; DCC.ADV's sum is read from the channel it replaces. -/
theorem dutyCycleOperations : Obligations.DutyCycleOperations :=
  ⟨fun _ _ _ => rfl,
    fun c s => (exec_dccAdv c s).trans (congrArg Host.Outcome.next (State.updChan_congr s c rfl)),
    fun _ _ => rfl⟩

end Sys2Proof.Machine

/-! # The controllers (R130 to R139) -/

namespace Sys2Proof.Machine

/-! Loading and enabling (R131, R132) -/

theorem exec_ctlEn (c : Chan) (b : Bool) (s : State) :
    exec (.ctlEn c b) s = .next (s.updChan c (Channel.ctlEnable b)) := rfl

/-- R132: the integral preset at enable, `cur_out * 10^7`, fits its 64 bits. -/
theorem toInt_integralPreset (x : BitVec 32) :
    (BitVec.ofInt 64 (x.toInt * accPerMp)).toInt = x.toInt * 10 ^ 7 := by
  have hlo := BitVec.le_toInt x
  have hhi := BitVec.toInt_lt (x := x)
  simp only [accPerMp]
  exact toInt_ofInt_64 (by omega) (by omega)

section Enable

variable {ch : Channel}

theorem Channel.ctlEnable_same {b : Bool} (h : b = ch.ctlEn) : ch.ctlEnable b = ch := if_pos h

theorem Channel.ctlEnable_true (h : ch.ctlEn = false) :
    ch.ctlEnable true =
      { ch with
        ctlEn := true, iAcc := BitVec.ofInt 64 (ch.curOut.toInt * accPerMp), tbhPrev := ch.curOut
        haveIn := false, haveErr := false } := by
  simp [Channel.ctlEnable, h]

theorem Channel.ctlEnable_false (h : ch.ctlEn = true) : ch.ctlEnable false = { ch with ctlEn := false } := by
  simp [Channel.ctlEnable, h]

end Enable

/-- Settles O23: CTL.LOAD by its definition, CTL.EN by its three cases. -/
theorem controllerLoadAndEnable : Obligations.ControllerLoadAndEnable := by
  refine ⟨fun _ _ _ => rfl, fun c b s same => ?_, fun c s off => ⟨_, toInt_integralPreset _, ?_⟩,
    fun c s on => ?_⟩
  · rw [exec_ctlEn, State.updChan_eq, Channel.ctlEnable_same same, State.setChan_chan]
  · exact congrArg Host.Outcome.next (State.updChan_congr s c (Channel.ctlEnable_true off))
  · exact congrArg Host.Outcome.next (State.updChan_congr s c (Channel.ctlEnable_false on))

/-! What a controller step hands over (R134, R138, log 3) -/

/-- The state with another result handed over. -/
def State.withRet (s : State) (r : OpResult) : State := { s with ret := r }

/-- The state after a controller step: the channel written back, the output handed over. -/
def State.handOver (s : State) (c : Chan) (r : Int × Channel) : State :=
  (s.setChan c r.2).withRet (.number r.1)

section HandOver

variable (s : State) (c : Chan) (target actual : BitVec 16)

theorem exec_pidStep : exec (.pidStep c target actual) s
    = .next (s.handOver c ((s.chan c).pidStep s.cfg target.toNat actual.toInt)) := rfl

theorem exec_tbhStep : exec (.tbhStep c target actual) s
    = .next (s.handOver c ((s.chan c).tbhStep s.cfg target.toNat actual.toInt)) := rfl

@[simp] theorem State.withRet_chan (r : OpResult) : (s.withRet r).chan c = s.chan c := by cases c <;> rfl

@[simp] theorem State.withRet_cfg (r : OpResult) : (s.withRet r).cfg = s.cfg := rfl

@[simp] theorem State.handOver_chan (r : Int × Channel) : (s.handOver c r).chan c = r.2 := by
  cases c <;> rfl

@[simp] theorem State.handOver_cfg (r : Int × Channel) : (s.handOver c r).cfg = s.cfg := by cases c <;> rfl

@[simp] theorem State.handOver_ret (r : Int × Channel) : (s.handOver c r).ret = .number r.1 := rfl

theorem State.handOver_chan_self (v : Int) : s.handOver c (v, s.chan c) = s.withRet (.number v) := by
  simp [State.handOver]

end HandOver

/-! The PID controller (R134) -/

section Pid

variable {cfg : Config} {ch : Channel}

theorem Channel.pidStep_disabled (h : ch.ctlEn = false) (target actual : Int) :
    ch.pidStep cfg target actual = (ch.curOut.toInt, ch) := if_pos h

theorem Channel.pidStep_enabled (h : ch.ctlEn = true) (target actual : Int) :
    let err := target - actual
    let acc := ch.pidIntegral cfg err
    let out := ch.pidOutput cfg err actual acc
    ch.pidStep cfg target actual =
      (out,
        { ch with
          iAcc := BitVec.ofInt 64 acc, curOut := BitVec.ofInt 32 out
          lastIn := BitVec.ofInt 16 actual, haveIn := true
          lastErr := BitVec.ofInt 32 err, haveErr := true }) :=
  if_neg (by simp [h])

theorem Channel.pidDiff_eq (cfg : Config) (actual : Int) (ch : Channel) :
    ch.pidDiff cfg actual =
      if ch.haveIn = false then 0
      else ((ch.k.x2.toNat : Int) * (actual - ch.lastIn.toInt) * 100000).tdiv cfg.intervalUs := by
  cases h : ch.haveIn <;> simp [Channel.pidDiff, divT, h]

/-- R135: the integral fits its 64 bits and is not below `-Ilimit`. -/
theorem Channel.pidIntegral_bounds (cfg : Config) (err : Int) (ch : Channel) :
    -(ch.k.x3.toNat * 10 ^ 7 : Int) ≤ ch.pidIntegral cfg err
      ∧ -9223372036854775808 ≤ ch.pidIntegral cfg err
      ∧ ch.pidIntegral cfg err ≤ 9223372036854775807 := by
  have hlim := ch.k.x3.isLt
  simp only [Channel.pidIntegral, accPerMp]
  generalize hsum : sat64 _ = sum
  have hsat : -9223372036854775808 ≤ sum ∧ sum ≤ 9223372036854775807 := hsum ▸ sat64_bounds _
  split_ifs <;> omega

/-- R135: where the positive clamp's condition holds, the integral is not above `Ilimit`. -/
theorem Channel.pidIntegral_le {err : Int} (full : ch.curOut.toInt ≥ cfg.outMaxM) (have_err : ch.haveErr = true)
    (rising : err > ch.lastErr.toInt) : ch.pidIntegral cfg err ≤ ch.k.x3.toNat * 10 ^ 7 := by
  simp only [Channel.pidIntegral, accPerMp, full, have_err, rising, true_and]
  split_ifs <;> omega

theorem Channel.pidOutput_bounds (F : CfgFacts cfg) (err actual acc : Int) (ch : Channel) :
    (cfg.outMinM : Int) ≤ ch.pidOutput cfg err actual acc ∧ ch.pidOutput cfg err actual acc ≤ cfg.outMaxM :=
  clamp_bounds _ (by have := F.out; omega)

/-- R29: an output inside the clamp of a legal configuration fits its 32 bits. -/
theorem CfgFacts.toInt_output (F : CfgFacts cfg) {v : Int} (h : 0 ≤ v) (h' : v ≤ cfg.outMaxM) :
    (BitVec.ofInt 32 v).toInt = v := by
  have := F.out
  exact toInt_ofInt_32 (by omega) (by omega)

/-- R136: without an error, the first step's integral is the one preset at enable. -/
theorem Channel.pidIntegral_preset (first : ch.haveErr = false)
    (preset : ch.iAcc.toInt = ch.curOut.toInt * 10 ^ 7) (nonneg : 0 ≤ ch.curOut.toInt) :
    ch.pidIntegral cfg 0 = ch.curOut.toInt * 10 ^ 7 := by
  have hhi := BitVec.toInt_lt (x := ch.curOut)
  have hsat : sat64 (ch.curOut.toInt * 10 ^ 7) = ch.curOut.toInt * 10 ^ 7 :=
    clamp_of_mem (by omega) (by omega)
  simp only [Channel.pidIntegral, first, preset, divT, accPerMp, mul_zero, zero_mul, Int.zero_tdiv, ite_self,
    add_zero, hsat, Bool.false_eq_true, false_and, and_false, if_false]
  rw [if_neg (by omega)]

/-- R136: the first step after enabling, without an error, hands over the held output. -/
theorem Channel.pidStep_bumpless (on : ch.ctlEn = true) (first_in : ch.haveIn = false)
    (first_err : ch.haveErr = false) (preset : ch.iAcc.toInt = ch.curOut.toInt * 10 ^ 7)
    (hlo : (cfg.outMinM : Int) ≤ ch.curOut.toInt) (hhi : ch.curOut.toInt ≤ cfg.outMaxM) (actual : Int) :
    (ch.pidStep cfg actual actual).1 = ch.curOut.toInt := by
  have hterm : (ch.curOut.toInt * 10 ^ 7).tdiv (10 ^ 7) = ch.curOut.toInt :=
    Int.mul_tdiv_cancel _ (by decide)
  rw [Channel.pidStep_enabled on]
  simp only [sub_self, Channel.pidIntegral_preset first_err preset (by omega), Channel.pidOutput,
    Channel.pidDiff_eq, first_in, divT, mul_zero, Int.zero_tdiv, zero_add, if_true, sub_zero]
  exact (congrArg (clamp · _ _) hterm).trans (clamp_of_mem hlo hhi)

end Pid

/-- Settles O24: a disabled step writes the channel back as it is; an enabled one by its definition. -/
theorem pidStepFollowsItsRule : Obligations.PidStepFollowsItsRule := by
  intro c target actual s ch err prev inc half sum lim low acc p d out
  split_ifs with off
  · rw [exec_pidStep, Channel.pidStep_disabled off, State.handOver_chan_self]
    rfl
  · rw [exec_pidStep, Channel.pidStep_enabled (eq_true_of_ne_false off), BitVec.ofInt_toInt]
    simp only [Channel.pidOutput, Channel.pidDiff_eq]
    rfl

/-- Settles O25: the bounds of the clamp and of the integral, both of which fit their registers. -/
theorem pidStaysInItsBounds : Obligations.PidStaysInItsBounds := by
  intro c target actual s t legal on h
  have F := configLegal_facts legal
  rw [exec_pidStep, Channel.pidStep_enabled on] at h
  cases h
  obtain ⟨hlow, hlo64, hhi64⟩ :=
    Channel.pidIntegral_bounds s.cfg ((target.toNat : Int) - actual.toInt) (s.chan c)
  have hacc := toInt_ofInt_64 hlo64 hhi64
  obtain ⟨hmin, hmax⟩ := Channel.pidOutput_bounds F ((target.toNat : Int) - actual.toInt) actual.toInt
    ((s.chan c).pidIntegral s.cfg ((target.toNat : Int) - actual.toInt)) (s.chan c)
  simp only [State.handOver_chan, hacc, F.toInt_output (by omega) hmax]
  exact ⟨hmin, hmax, hlow, Channel.pidIntegral_le⟩

/-! The Take-Back-Half controller (R138) -/

section TakeBackHalf

variable {cfg : Config} {ch : Channel}

theorem Channel.tbhStep_disabled (h : ch.ctlEn = false) (target actual : Int) :
    ch.tbhStep cfg target actual = (ch.curOut.toInt, ch) := if_pos h

theorem Channel.tbhDamped_eq (cfg : Config) (err actual : Int) (ch : Channel) :
    let dT := if ch.haveIn = false then 0 else actual - ch.lastIn.toInt
    let out := ch.curOut.toInt + ((ch.k.x0.toNat : Int) * err).tdiv 10
    let beta : Int := if (err > 0 ∧ dT > 0) ∨ (err < 0 ∧ dT < 0) then ch.k.x1.toNat else ch.k.x2.toNat
    ch.tbhDamped cfg err actual = clamp (out - (beta * dT).tdiv 10) cfg.outMinM cfg.outMaxM := by
  cases h : ch.haveIn <;> simp [Channel.tbhDamped, divT, h]

theorem Channel.errFlips_iff {err : Int} :
    ch.errFlips err = true ↔ ch.haveErr = true ∧ (err < 0 ↔ ¬ ch.lastErr.toInt < 0) := by
  by_cases hnew : err < 0 <;> by_cases hold : ch.lastErr.toInt < 0 <;> simp [Channel.errFlips, hnew, hold]

/-- The channel an enabled TBH.STEP writes back around its output, `tbh_prev` apart (R138). -/
def Channel.tbhKept (err actual out : Int) (ch : Channel) : Channel :=
  { ch with
    curOut := BitVec.ofInt 32 out, lastIn := BitVec.ofInt 16 actual, haveIn := true
    lastErr := BitVec.ofInt 32 err, haveErr := true }

/-- R138: no sign change, so the damped output is kept. -/
theorem Channel.tbhStep_straight {target actual : Int} (on : ch.ctlEn = true)
    (straight : ch.errFlips (target - actual) = false) :
    let out := ch.tbhDamped cfg (target - actual) actual
    ch.tbhStep cfg target actual = (out, ch.tbhKept (target - actual) actual out) := by
  simp [Channel.tbhStep, on, straight, Channel.tbhKept]

/-- R138: at a sign change half is taken back, and remembered. -/
theorem Channel.tbhStep_flip {target actual : Int} (on : ch.ctlEn = true)
    (flip : ch.errFlips (target - actual) = true) :
    let half := (ch.tbhDamped cfg (target - actual) actual + ch.tbhPrev.toInt).tdiv 2
    ch.tbhStep cfg target actual =
      (half, { ch.tbhKept (target - actual) actual half with tbhPrev := BitVec.ofInt 32 half }) := by
  simp [Channel.tbhStep, on, flip, Channel.tbhKept, divT]

theorem Channel.tbhDamped_bounds (F : CfgFacts cfg) (err actual : Int) (ch : Channel) :
    0 ≤ ch.tbhDamped cfg err actual ∧ ch.tbhDamped cfg err actual ≤ cfg.outMaxM := by
  have hout := F.out
  have hclamp : (cfg.outMinM : Int) ≤ ch.tbhDamped cfg err actual ∧ ch.tbhDamped cfg err actual ≤ cfg.outMaxM :=
    clamp_bounds _ (by omega)
  omega

/-- R138: the mean of two outputs in range is in range. -/
theorem mean_bounds {a b hi : Int} (ha : 0 ≤ a ∧ a ≤ hi) (hb : 0 ≤ b ∧ b ≤ hi) :
    0 ≤ (a + b).tdiv 2 ∧ (a + b).tdiv 2 ≤ hi := by
  rw [Int.tdiv_eq_ediv_of_nonneg (by omega)]
  omega

end TakeBackHalf

/-- Settles O27: disabled, at a sign change, and without one. -/
theorem takeBackHalfStepFollowsItsRule : Obligations.TakeBackHalfStepFollowsItsRule := by
  intro c target actual s
  dsimp only
  rw [exec_tbhStep, ← Channel.tbhDamped_eq]
  split_ifs with off flip
  · rw [Channel.tbhStep_disabled off, State.handOver_chan_self]
    rfl
  · rw [Channel.tbhStep_flip (eq_true_of_ne_false off) (Channel.errFlips_iff.2 flip), Channel.tbhKept,
      BitVec.ofInt_toInt]
    rfl
  · rw [Channel.tbhStep_straight (eq_true_of_ne_false off)
      (Bool.eq_false_iff.2 fun h => flip (Channel.errFlips_iff.1 h)), Channel.tbhKept, BitVec.ofInt_toInt]
    rfl

/-! Bumpless transfer (R136) -/

theorem isControllerStep_cases {c : Chan} {i : Instr} (h : isControllerStep c i = true) :
    ∃ target actual, i = .pidStep c target actual ∨ i = .tbhStep c target actual := by
  unfold isControllerStep at h
  split at h
  · cases eq_of_beq h
    exact ⟨_, _, .inl rfl⟩
  · cases eq_of_beq h
    exact ⟨_, _, .inr rfl⟩
  · cases h

/-- R134, R138: a step of a disabled controller, of either kind, hands over the held output and changes
nothing. -/
theorem exec_controllerStep_disabled {c : Chan} {i : Instr} {s : State} (hi : isControllerStep c i = true)
    (off : (s.chan c).ctlEn = false) : exec i s = .next (s.withRet (.number (s.chan c).curOut.toInt)) := by
  obtain ⟨target, actual, rfl | rfl⟩ := isControllerStep_cases hi
  · rw [exec_pidStep, Channel.pidStep_disabled off, State.handOver_chan_self]
  · rw [exec_tbhStep, Channel.tbhStep_disabled off, State.handOver_chan_self]

/-- R136: so does every step of a run of them. -/
theorem controllerSteps_disabled {c : Chan} {steps : List Instr} {s : State}
    (hsteps : ∀ i ∈ steps, isControllerStep c i = true) (off : (s.chan c).ctlEn = false) :
    resultsOf steps s = steps.map (fun _ => .number (s.chan c).curOut.toInt)
      ∧ ∃ r, runInstrs steps s = .next (s.withRet r) := by
  induction steps generalizing s with
  | nil => exact ⟨rfl, s.ret, rfl⟩
  | cons i is ih =>
    obtain ⟨hi, his⟩ := List.forall_mem_cons.1 hsteps
    have hstep := exec_controllerStep_disabled hi off
    obtain ⟨hresults, r, hrun⟩ :=
      ih (s := s.withRet (.number (s.chan c).curOut.toInt)) his (by rwa [State.withRet_chan])
    rw [State.withRet_chan] at hresults
    simp only [resultsOf, runInstrs, hstep, hresults, hrun]
    exact ⟨rfl, r, rfl⟩

/-- Settles O26: the disabled steps change only what is handed over, so enabling presets the integral to the
held output, and the first step without an error returns it. -/
theorem transferIsBumpless : Obligations.TransferIsBumpless := by
  intro c steps s hsteps on
  have hchan : (s.updChan c (Channel.ctlEnable false)).chan c = { s.chan c with ctlEn := false } := by
    rw [State.chan_updChan, Channel.ctlEnable_false on]
  obtain ⟨hresults, r, hrun⟩ :=
    controllerSteps_disabled (s := s.updChan c (Channel.ctlEnable false)) hsteps (by rw [hchan])
  rw [hchan] at hresults
  refine ⟨by rw [after_ctlEn]; exact hresults, _, _, hrun, exec_ctlEn c true _, ?_⟩
  have hpreset := toInt_integralPreset (s.chan c).curOut
  simp only [State.chan_updChan, State.withRet_chan, hchan, Channel.ctlEnable_true]
  refine ⟨trivial, hpreset, trivial, trivial, fun hlo hhi target actual noError => ?_⟩
  have hstep := Channel.pidStep_bumpless (ch := Channel.ctlEnable true { s.chan c with ctlEn := false })
    rfl rfl rfl hpreset hlo hhi actual.toInt
  refine ⟨_, exec_pidStep _ _ _ _, ?_⟩
  simp only [State.handOver_ret, State.chan_updChan, State.withRet_chan, State.updChan_cfg, State.withRet_cfg,
    hchan, noError]
  exact congrArg OpResult.number hstep

/-! Take-back-half along a run (R139) -/

section TakeBackHalfRun

variable {cfg : Config} {ch : Channel} {target actual : Int}

/-- R138: the output of an enabled step is in range, the channel holds it, and `tbh_prev` is it at a sign
change and what it was otherwise. -/
theorem Channel.tbhStep_enabled (F : CfgFacts cfg) (on : ch.ctlEn = true) (h : OutputInv cfg ch) :
    let r := ch.tbhStep cfg target actual
    OutputInv cfg r.2 ∧ r.2.ctlEn = true ∧ r.2.curOut.toInt = r.1
      ∧ r.2.tbhPrev.toInt = if ch.errFlips (target - actual) = true then r.1 else ch.tbhPrev.toInt := by
  obtain ⟨-, -, hprev⟩ := h
  have hdamped := Channel.tbhDamped_bounds F (target - actual) actual ch
  have hhalf := mean_bounds hdamped hprev
  cases flip : ch.errFlips (target - actual) with
  | true =>
    have hfit := F.toInt_output hhalf.1 hhalf.2
    rw [Channel.tbhStep_flip on flip]
    simp only [OutputInv, Channel.tbhKept, hfit, on, if_true]
    exact ⟨⟨hhalf.1, hhalf.2, hhalf⟩, trivial, trivial, trivial⟩
  | false =>
    have hfit := F.toInt_output hdamped.1 hdamped.2
    rw [Channel.tbhStep_straight on flip]
    simp only [OutputInv, Channel.tbhKept, hfit, on, Bool.false_eq_true, if_false]
    exact ⟨⟨hdamped.1, hdamped.2, hprev⟩, trivial, trivial, trivial⟩

end TakeBackHalfRun

/-- What a run of TBH.STEP keeps (R139): the controller is enabled, its outputs are in range, and `tbh_prev`
is the output `h` returned at the last sign change. -/
structure TakesBack (cfg : Config) (c : Chan) (h : OpResult) (s : State) : Prop where
  config : s.cfg = cfg
  enabled : (s.chan c).ctlEn = true
  output : OutputInv cfg (s.chan c)
  lastFlip : h = .number (s.chan c).tbhPrev.toInt

/-- R132: enabling starts the history with the held output. -/
theorem TakesBack.enable {c : Chan} {s : State} (off : (s.chan c).ctlEn = false)
    (hlo : 0 ≤ (s.chan c).curOut.toInt) (hhi : (s.chan c).curOut.toInt ≤ s.cfg.outMaxM) :
    TakesBack s.cfg c (.number (s.chan c).curOut.toInt) (after (.ctlEn c true) s) := by
  rw [after_ctlEn]
  constructor <;> simp only [State.updChan_cfg, State.chan_updChan, Channel.ctlEnable_true off]
  exact ⟨hlo, hhi, hlo, hhi⟩

theorem TakesBack.step {cfg : Config} {c : Chan} {h : OpResult} {s : State} (F : CfgFacts cfg)
    (hs : TakesBack cfg c h s) (target actual : BitVec 16) :
    let r := (s.chan c).tbhStep s.cfg target.toNat actual.toInt
    TakesBack cfg c
      (if (s.chan c).errFlips (target.toNat - actual.toInt) = true then .number r.1 else h)
      (s.handOver c r) := by
  obtain ⟨rfl, on, hout, rfl⟩ := hs
  obtain ⟨hout', on', -, hprev⟩ :=
    Channel.tbhStep_enabled (target := target.toNat) (actual := actual.toInt) F on hout
  constructor <;> simp only [State.handOver_cfg, State.handOver_chan]
  · exact on'
  · exact hout'
  · rw [hprev, apply_ite OpResult.number]

/-- R139: every run of TBH.STEP keeps it. -/
theorem TakesBack.run {cfg : Config} {c : Chan} (F : CfgFacts cfg) (l : List (BitVec 16 × BitVec 16))
    {h : OpResult} {s : State} (hs : TakesBack cfg c h s) :
    TakesBack cfg c (lastFlipOutput c l s h).1 (lastFlipOutput c l s h).2 := by
  induction l generalizing h s with
  | nil => exact hs
  | cons x xs ih =>
    have hstep := hs.step F x.1 x.2
    simp only [Channel.errFlips_iff] at hstep
    simp only [lastFlipOutput, exec_tbhStep, State.handOver_ret]
    exact ih hstep

/-- Settles O28: the run keeps `tbh_prev` at the output of the last sign change, and a step at a sign change
averages with `tbh_prev`. -/
theorem takeBackHalfAveragesWithTheLastFlip : Obligations.TakeBackHalfAveragesWithTheLastFlip := by
  intro c s l legal off hlo hhi
  have F := configLegal_facts legal
  have hrun := (TakesBack.enable off hlo hhi).run F l
  generalize lastFlipOutput c l _ _ = r at hrun ⊢
  obtain ⟨config, on, hout, lastFlip⟩ := hrun
  refine ⟨_, lastFlip, rfl, fun target actual => ?_⟩
  dsimp only
  rw [← Channel.tbhDamped_eq, ← config]
  intro haveErr signs
  have flip := Channel.errFlips_iff.2 ⟨haveErr, signs⟩
  rw [← config] at F hout
  obtain ⟨-, -, hcur, hprev⟩ := Channel.tbhStep_enabled F on hout
  refine ⟨_, exec_tbhStep _ _ _ _, ?_⟩
  rw [State.handOver_chan, State.handOver_ret, hcur, hprev, if_pos flip, Channel.tbhStep_flip on flip]
  exact ⟨rfl, rfl, rfl⟩

end Sys2Proof.Machine

/-! # The dispatch of conversions (R156 to R158, R224, R226) -/

namespace Sys2Proof.Machine

/-! Entries of the queue -/

/-- R158: entry `i` of the queue is an identification and its channel's last entry, or a code its channel's
iron has a slot for. -/
def EntryDispatches (s : State) (i : Nat) : Prop :=
  (muxStrip (s.qAt i) = mxId ∧ ∀ j, i < j → j < s.qLen.toNat → chanOf (s.qAt j) ≠ chanOf (s.qAt i))
    ∨ (muxStrip (s.qAt i) ≠ mxId
      ∧ (slotOf (s.chan (chanOf (s.qAt i))).iron (muxStrip (s.qAt i))).isSome = true)

theorem dispatchInv_iff (s : State) :
    DispatchInv s ↔
      (s.adcBusy = true → ∀ i, s.qIdx.toNat ≤ i → i < s.qLen.toNat → EntryDispatches s i) := Iff.rfl

theorem DispatchInv.of_idle {s : State} (h : s.adcBusy = false) : DispatchInv s := fun busy =>
  absurd (busy.symm.trans h) nofun

/-- An entry depends on the queue and, unless it is an identification, on its channel's iron. -/
theorem EntryDispatches.of_same {s t : State} {i : Nat} (h : EntryDispatches s i) (hq : t.q = s.q)
    (hlen : t.qLen = s.qLen)
    (hiron : muxStrip (s.qAt i) ≠ mxId →
      (t.chan (chanOf (s.qAt i))).iron = (s.chan (chanOf (s.qAt i))).iron) : EntryDispatches t i := by
  have hqAt : t.qAt = s.qAt := by
    unfold State.qAt
    rw [hq]
  unfold EntryDispatches
  rw [hqAt, hlen]
  rcases h with last | ⟨code, slot⟩
  · exact .inl last
  · exact .inr ⟨code, by rwa [hiron code]⟩

/-- `t` has the conversions still to come and the irons of `s`. -/
structure SameConversions (s t : State) : Prop where
  queue : t.q = s.q
  length : t.qLen = s.qLen
  pointer : t.qIdx = s.qIdx
  busy : t.adcBusy = s.adcBusy
  iron : ∀ c, (t.chan c).iron = (s.chan c).iron

theorem DispatchInv.of_same {s t : State} (hs : DispatchInv s) (h : SameConversions s t) : DispatchInv t := by
  rw [dispatchInv_iff, h.busy, h.pointer, h.length]
  exact fun busy i hidx hlen => EntryDispatches.of_same (hs busy i hidx hlen) h.queue h.length fun _ => h.iron _

theorem DispatchInv.beginStep {s : State} (hs : DispatchInv s) (st : Stimulus) : DispatchInv (s.beginStep st) :=
  hs.of_same ⟨rfl, rfl, rfl, rfl, fun c => by rw [State.beginStep_chan]⟩

/-- Reset, EV.TMR and EV.ADC apart, no operation from outside reaches the conversions or an iron. -/
theorem exec_sameConversions {i : Instr} {s t : State} (hi : i.issuable = true) (rst : i ≠ .evRst)
    (tmr : i ≠ .evTmr) (adc : ¬ IsConversion i) (h : exec i s = .next t) : SameConversions s t := by
  have update : ¬ IsUpdate i := not_or.2 ⟨tmr, adc⟩
  obtain ⟨machine, channels⟩ := exec_written hi rst h
  constructor
  · exact by_contra fun hq => tmr (machine.queue (.inl hq))
  · exact by_contra fun hlen => tmr (machine.queue (.inr hlen))
  · exact by_contra fun hidx => update (machine.conversion (.inr (.inl hidx)))
  · exact by_contra fun hbusy => update (machine.conversion (.inl hbusy))
  · exact fun c => by_contra fun hiron => adc ((channels c).iron (.inl hiron))

/-! The queue SEQ.BUILD makes (R224) -/

/-- R104, R151: an identification has a slot under no iron. -/
theorem slotOf_mxId (iron : Iron) : slotOf iron mxId = none := by cases iron <;> rfl

/-- R156: the codes of a legal configuration's sequence are untagged and have a slot. -/
theorem measSeq_codes {cfg : Config} (F : CfgFacts cfg) (ch : Channel) {m : MuxCode} (hm : m ∈ measSeq cfg ch) :
    untagged m = true ∧ (slotOf ch.iron m).isSome = true := by
  have legal := F.seqs ch.iron
  simp only [seqLegal, Bool.and_eq_true, List.all_eq_true] at legal
  exact legal.2 m hm

/-- R190, R224: a channel asks for an identification alone or for its iron's sequence. -/
theorem Channel.buildPart_codes (cfg : Config) (ch : Channel) :
    (ch.buildPart cfg).1 = [mxId] ∨ (ch.buildPart cfg).1 = measSeq cfg ch := by
  unfold Channel.buildPart
  dsimp only
  split
  · exact .inr rfl
  split
  · exact .inl rfl
  · exact .inr rfl

theorem Channel.buildPart_untagged {cfg : Config} (F : CfgFacts cfg) (ch : Channel) {m : MuxCode}
    (hm : m ∈ (ch.buildPart cfg).1) : untagged m = true := by
  rcases ch.buildPart_codes cfg with h | h <;> rw [h] at hm
  · rw [List.mem_singleton.1 hm]
    rfl
  · exact (measSeq_codes F ch hm).1

theorem State.seqBuild_iron (s : State) (c : Chan) : (s.seqBuild.chan c).iron = (s.chan c).iron := by
  rw [State.seqBuild_chan, Channel.buildPart_frame]

/-- R224: channel 0's codes come first. -/
theorem State.seqBuild_qAt_ch0 (s : State) {i : Nat} (h : i < (s.ch0.buildPart s.cfg).1.length) :
    s.seqBuild.qAt i = muxTag (s.ch0.buildPart s.cfg).1[i] .ch0 := by
  have hle := Channel.buildPart_length_le s.cfg s.ch0
  rw [State.seqBuild_qAt s (by omega), State.builtTags]
  simp [List.getElem?_append_left, h]

/-- R224: channel 1's codes follow. -/
theorem State.seqBuild_qAt_ch1 (s : State) {i : Nat} (hi : (s.ch0.buildPart s.cfg).1.length ≤ i)
    (h : i - (s.ch0.buildPart s.cfg).1.length < (s.ch1.buildPart s.cfg).1.length) :
    s.seqBuild.qAt i
      = muxTag (s.ch1.buildPart s.cfg).1[i - (s.ch0.buildPart s.cfg).1.length] .ch1 := by
  have h0 := Channel.buildPart_length_le s.cfg s.ch0
  have h1 := Channel.buildPart_length_le s.cfg s.ch1
  rw [State.seqBuild_qAt s (by omega), State.builtTags]
  simp [List.getElem?_append_right, hi, h]

theorem State.seqBuild_qLen_eq (s : State) :
    s.seqBuild.qLen.toNat = (s.ch0.buildPart s.cfg).1.length + (s.ch1.buildPart s.cfg).1.length := by
  rw [State.seqBuild_qLen, State.builtTags, List.length_append, List.length_map, List.length_map]

/-- An entry of the new queue dispatches if an identification among its channel's codes is that channel's last
entry. -/
theorem State.seqBuild_entry {s : State} (F : CfgFacts s.cfg) {c : Chan} {i : Nat} {m : MuxCode}
    (hm : m ∈ ((s.chan c).buildPart s.cfg).1) (hi : s.seqBuild.qAt i = muxTag m c)
    (last : ((s.chan c).buildPart s.cfg).1 = [mxId] →
      ∀ j, i < j → j < s.seqBuild.qLen.toNat → chanOf (s.seqBuild.qAt j) ≠ c) :
    EntryDispatches s.seqBuild i := by
  obtain ⟨strip, chan⟩ := muxStrip_muxTag c (Channel.buildPart_untagged F _ hm)
  unfold EntryDispatches
  rw [hi, strip, chan, State.seqBuild_iron]
  rcases (s.chan c).buildPart_codes s.cfg with h | h
  · rw [h] at hm
    exact .inl ⟨List.mem_singleton.1 hm, last h⟩
  · rw [h] at hm
    have slot := (measSeq_codes F _ hm).2
    refine .inr ⟨?_, slot⟩
    rintro rfl
    rw [slotOf_mxId] at slot
    cases slot

/-- R158, R224: every entry of the new queue dispatches. -/
theorem State.seqBuild_dispatches {s : State} (F : CfgFacts s.cfg) {i : Nat}
    (hi : i < s.seqBuild.qLen.toNat) : EntryDispatches s.seqBuild i := by
  have hlen := s.seqBuild_qLen_eq
  rcases Nat.lt_or_ge i (s.ch0.buildPart s.cfg).1.length with h0 | h0
  · refine State.seqBuild_entry F (c := .ch0) (List.getElem_mem h0) (s.seqBuild_qAt_ch0 h0) ?_
    intro alone j hij hj
    change (s.ch0.buildPart s.cfg).1 = [mxId] at alone
    have hone : (s.ch0.buildPart s.cfg).1.length = 1 := by rw [alone]; rfl
    have hj1 : j - (s.ch0.buildPart s.cfg).1.length < (s.ch1.buildPart s.cfg).1.length := by omega
    rw [s.seqBuild_qAt_ch1 (by omega) hj1,
      (muxStrip_muxTag .ch1 (Channel.buildPart_untagged F _ (List.getElem_mem hj1))).2]
    decide
  · have h1 : i - (s.ch0.buildPart s.cfg).1.length < (s.ch1.buildPart s.cfg).1.length := by omega
    refine State.seqBuild_entry F (c := .ch1) (List.getElem_mem h1) (s.seqBuild_qAt_ch1 h0 h1) ?_
    intro alone j hij hj
    change (s.ch1.buildPart s.cfg).1 = [mxId] at alone
    have hone : (s.ch1.buildPart s.cfg).1.length = 1 := by rw [alone]; rfl
    omega

/-- R222: an expected timer pulse starts the first conversion of a new queue. -/
theorem State.evTmr_dispatchInv {s : State} (F : CfgFacts s.cfg) (hs : DispatchInv s) : DispatchInv s.evTmr := by
  unfold State.evTmr
  split
  · exact hs
  split
  · exact hs
  dsimp only
  split
  next empty =>
    intro _ i _ hi
    change i < (State.seqBuild { s with timerArmed := false }).qLen.toNat at hi
    rw [empty] at hi
    exact absurd hi (Nat.not_lt_zero i)
  next =>
    intro _ i _ hi
    refine (State.seqBuild_dispatches (s := { s with timerArmed := false }) F hi).of_same rfl rfl fun _ => ?_
    cases chanOf (State.qAt (State.seqBuild { s with timerArmed := false }) i) <;> rfl

/-! A conversion that completes (R226) -/

/-- R189, R157: a sample that dispatches is taken without a trap, and only an identification changes an iron,
its own channel's. -/
theorem State.chProc_dispatched {s : State} {c : Chan} {m : MuxCode} (raw : BitVec 16)
    (h : m = mxId ∨ (slotOf (s.chan c).iron m).isSome = true) :
    ∃ u, SampleTaken c raw s u ∧ s.chProc c m raw = .done u
      ∧ ∀ d, d ≠ c ∨ m ≠ mxId → (u.chan d).iron = (s.chan d).iron := by
  unfold State.chProc State.measProc
  split
  · next ident =>
    split
    · next running => exact ⟨s, .dropped running, rfl, fun _ _ => rfl⟩
    · next stopped =>
      refine ⟨_, .identified (by simpa using stopped), rfl, fun d hd => ?_⟩
      rw [State.putChannel_chan_other _ _ (hd.resolve_right (not_not.2 ident))]
  · next code =>
    obtain ⟨slot, hslot⟩ := Option.isSome_iff_exists.1 (h.resolve_left code)
    rw [hslot]
    refine ⟨_, .averaged slot, rfl, fun d _ => ?_⟩
    rw [State.updChan_eq, State.chan_setChan]
    split
    · next hd => rw [hd, Channel.takeSample_iron]
    · rfl

theorem State.adcAdvance_more {s : State} (h : (s.qIdx + 1).toNat < s.qLen.toNat) :
    s.adcAdvance = { s with qIdx := s.qIdx + 1 }.seqNext := if_pos h

theorem State.adcAdvance_drained {s : State} (h : ¬ (s.qIdx + 1).toNat < s.qLen.toNat) :
    s.adcAdvance = { s with qIdx := 0 }.ctrlUpdate := if_neg h

/-- `u` is `s` with the entry in flight completed and its sample taken. -/
structure EntryCompleted (s u : State) : Prop where
  queue : u.q = s.q
  length : u.qLen = s.qLen
  pointer : u.qIdx = s.qIdx
  idle : u.adcBusy = false
  fatal : u.fatal = s.fatal
  iron : ∀ d, d ≠ chanOf (s.qAt s.qIdx.toNat) ∨ muxStrip (s.qAt s.qIdx.toNat) ≠ mxId →
    (u.chan d).iron = (s.chan d).iron

/-- R226: the completion of an entry that dispatches raises no trap and moves the queue on. -/
theorem State.evAdc_dispatched {s : State} (raw : BitVec 16) (running : s.fatal = false)
    (busy : s.adcBusy = true) (entry : EntryDispatches s s.qIdx.toNat) :
    ∃ u, EntryCompleted s u ∧ s.evAdc (s.qAt s.qIdx.toNat) raw = u.adcAdvance := by
  have idle (d : Chan) : State.chan { s with adcBusy := false } d = s.chan d := by cases d <;> rfl
  have code : muxStrip (s.qAt s.qIdx.toNat) = mxId
      ∨ (slotOf (State.chan { s with adcBusy := false } (chanOf (s.qAt s.qIdx.toNat))).iron
          (muxStrip (s.qAt s.qIdx.toNat))).isSome = true := by
    rw [idle]
    exact entry.imp And.left And.right
  obtain ⟨u, taken, hproc, hiron⟩ := State.chProc_dispatched raw code
  refine ⟨u, ?_, ?_⟩
  · constructor
    case iron => exact fun d hd => (hiron d hd).trans (congrArg Channel.iron (idle d))
    all_goals rw [taken.frame]
  · unfold State.evAdc
    rw [if_neg (by simp [running]), if_neg (by simp [busy]), hproc]

/-- R226: after an entry that dispatches, the entries behind it still dispatch. -/
theorem State.evAdc_dispatchInv {s : State} (tag : MuxCode) (raw : BitVec 16) (hq : SchedulerInv s)
    (hs : DispatchInv s) : DispatchInv (s.evAdc tag raw) := by
  rcases State.evAdc_cases tag raw s with ⟨-, h⟩ | h | ⟨running, busy, rfl, -⟩
  · rwa [h]
  · rw [h]
    exact hs.of_same ⟨rfl, rfl, rfl, rfl, fun c => by rw [State.raiseFatal_chan]⟩
  obtain ⟨-, hlen, hbusy, -⟩ := hq
  have hidx := hbusy busy
  have entry := hs busy _ le_rfl hidx
  obtain ⟨u, completed, h⟩ := State.evAdc_dispatched raw running busy entry
  have hnext : (s.qIdx + 1).toNat = s.qIdx.toNat + 1 := by
    rw [BitVec.toNat_add]
    exact Nat.mod_eq_of_lt (by change s.qIdx.toNat + 1 < 16; omega)
  rw [h]
  by_cases more : (u.qIdx + 1).toNat < u.qLen.toNat
  · rw [State.adcAdvance_more more, completed.pointer]
    intro _ k hk hklen
    change (s.qIdx + 1).toNat ≤ k at hk
    change k < u.qLen.toNat at hklen
    rw [hnext] at hk
    rw [completed.length] at hklen
    have kept := completed.iron (chanOf (s.qAt k)) (entry.imp (fun last => last.2 k hk hklen) And.left)
    refine EntryDispatches.of_same (hs busy k (by omega) hklen) completed.queue completed.length fun _ => ?_
    rw [← kept]
    cases chanOf (s.qAt k) <;> rfl
  · rw [State.adcAdvance_drained more]
    exact .of_idle completed.idle

/-! Every step -/

/-- Settles O15: EV.TMR queues entries that dispatch, EV.ADC keeps those behind the one that completed, and no
other operation reaches the queue or an iron. -/
theorem dispatchInvariantKept : Obligations.DispatchInvariantKept := by
  intro s t hq hs h
  obtain ⟨legal, rfl | ⟨st, -, ⟨i, -, hi, hexec⟩ | rfl⟩⟩ := step_cases h
  · exact hs.of_same ⟨rfl, rfl, rfl, rfl, fun c => by rw [State.dropPulses_chan]⟩
  · have begun := hs.beginStep st
    by_cases rst : i = .evRst
    · subst rst
      cases hexec
      exact .of_idle rfl
    by_cases tmr : i = .evTmr
    · subst tmr
      cases hexec
      exact State.evTmr_dispatchInv (configLegal_facts legal) begun
    by_cases adc : IsConversion i
    · obtain ⟨tag, raw, rfl⟩ := adc
      rw [execEvAdc_eq hexec]
      exact State.evAdc_dispatchInv tag raw hq begun
    · exact begun.of_same (exec_sameConversions hi rst tmr adc hexec)
  · exact hs.of_same ⟨rfl, rfl, rfl, rfl, fun c => by cases c <;> rfl⟩

/-! The traps (R281) -/

/-- R203: the only effect of a host command that halts the machine is `E_TIP_MISMATCH`. -/
theorem HostEffect.fatalCode {i : Instr} {s u : State} (h : HostEffect s i u) (running : s.fatal = false)
    (halts : u.fatal = true) : u.fatalCode = some .tipMismatch := by
  have unhalted {p : Prop} (h : s.fatal = true) : p := absurd (h.symm.trans running) nofun
  cases h with
  | tipMismatch => rfl
  | channel => exact unhalted ((State.setChan_fatal ..).symm.trans halts)
  | _ => exact unhalted halts

/-- R286: EV.ADC is taken only from its own latch. -/
theorem Pending.adc_of_first {p : Pending} {tag : BitVec 8} {raw : BitVec 16} (h : p.first = some (.adc tag raw)) :
    p.adc = some (tag, raw) := by
  unfold Pending.first at h
  iterate 4
    split at h
    · cases h
  split at h
  · next x hx =>
    cases h
    exact hx
  · cases hcmd : p.cmd <;> rw [hcmd] at h <;> cases h

/-- R96: the command port takes host commands only. -/
theorem isHost_of_commandInstr {w : StimWord} {i : Instr} (h : commandInstr w = some i) : i.isHost = true := by
  unfold commandInstr at h
  split at h
  · split at h
    · next hhost => cases h; exact hhost
    · cases h
  · cases h

/-- R96: no word on the command port is a completion. -/
theorem Stimulus.eq_adc_of_instr {st : Stimulus} {tag : BitVec 8} {raw : BitVec 16}
    (h : st.instr = some (.evAdc tag raw)) : st = .adc tag raw := by
  cases st with
  | adc => cases h; rfl
  | cmd w => cases isHost_of_commandInstr h
  | rst | oc | zc | tmr => cases h

/-- R63: the completion the platform has pending is that of the entry in flight. -/
theorem State.platformObeys_adc {s : State} (h : s.platformObeys = true) {tag : BitVec 8} {raw : BitVec 16}
    (hadc : s.pend.adc = some (tag, raw)) : s.adcBusy = true ∧ tag = s.qAt s.qIdx.toNat := by
  simp only [State.platformObeys, hadc, Bool.and_eq_true, beq_iff_eq] at h
  exact h.2

/-- R158: the completion of an entry that dispatches raises no trap. -/
theorem State.evAdc_fatal {s : State} (raw : BitVec 16) (running : s.fatal = false) (busy : s.adcBusy = true)
    (entry : EntryDispatches s s.qIdx.toNat) : (s.evAdc (s.qAt s.qIdx.toNat) raw).fatal = false := by
  obtain ⟨u, completed, h⟩ := State.evAdc_dispatched raw running busy entry
  rw [h, State.adcAdvance_frame]
  exact completed.fatal.trans running

/-- Reset, EV.ADC and CH.CHANGETIP apart, no operation from outside reaches the trap. -/
theorem exec_fatal {i : Instr} {s t : State} (hi : i.issuable = true) (rst : i ≠ .evRst) (adc : ¬ IsConversion i)
    (tip : ¬ IsTipChange i) (h : exec i s = .next t) : t.fatal = s.fatal :=
  by_contra fun trapped => not_or.2 ⟨adc, tip⟩ ((exec_written hi rst h).1.trap (.inl trapped))

/-- Settles O16: an obeying platform completes an entry that dispatches, which raises no trap; no other event
raises one, and a host command raises `E_TIP_MISMATCH` only. -/
theorem onlyTipMismatchTraps : Obligations.OnlyTipMismatchTraps := by
  intro s t hq hs obeys running h halts
  have untrapped (ht : t.fatal = s.fatal) : t.fatalCode = some .tipMismatch :=
    absurd (halts.symm.trans (ht.trans running)) nofun
  obtain ⟨-, rfl | ⟨st, hst, ⟨i, hinstr, hi, hexec⟩ | rfl⟩⟩ := step_cases h
  · exact untrapped rfl
  · by_cases hhost : i.isHost = true
    · obtain ⟨u, heffect, hanswer⟩ := exec_host_carriedOut hhost hexec
      unfold Answered at hanswer
      rw [hanswer] at halts ⊢
      exact heffect.fatalCode running halts
    by_cases rst : i = .evRst
    · subst rst
      cases hexec
      cases halts
    by_cases adc : IsConversion i
    · obtain ⟨tag, raw, rfl⟩ := adc
      cases Stimulus.eq_adc_of_instr hinstr
      have hadc : s.pend.adc = some (tag, raw) := by
        rcases State.nextStimulus_cases hst with ⟨-, h⟩ | ⟨-, h⟩
        · cases h
        · exact Pending.adc_of_first h
      obtain ⟨busy, rfl⟩ := State.platformObeys_adc obeys hadc
      obtain ⟨-, -, hbusy, -⟩ := hq
      have entry := hs.beginStep (.adc (s.qAt s.qIdx.toNat) raw) busy _ le_rfl (hbusy busy)
      rw [execEvAdc_eq hexec] at halts
      exact absurd (halts.symm.trans (State.evAdc_fatal raw running busy entry)) nofun
    · refine untrapped ((exec_fatal hi rst adc ?_ hexec).trans (s.beginStep_fatal st))
      rintro ⟨c, n, rfl⟩
      exact hhost rfl
  · exact untrapped rfl

end Sys2Proof.Machine

/-! # The measurement block (R151 to R163) -/

namespace Sys2Proof.Machine

/-! The calibration table (R154) -/

theorem sat16_of_mem {v : Int} (h : -32768 ≤ v) (h' : v ≤ 32767) : sat16 v = v := clamp_of_mem h h'

section Segment

variable {ta ma tb mb m : Int}

theorem interpSegment_flat (h : mb = ma) : interpSegment ta ma tb mb m = ta := if_pos h

theorem interpSegment_sloped (h : mb ≠ ma) :
    interpSegment ta ma tb mb m = sat16 (ta + ((m - ma) * (tb - ta)).tdiv (mb - ma)) := if_neg h

/-- A segment meets its first point. -/
theorem interpSegment_left (ta_lo : -32768 ≤ ta) (ta_hi : ta ≤ 32767) : interpSegment ta ma tb mb ma = ta := by
  by_cases h : mb = ma
  · exact interpSegment_flat h
  · rw [interpSegment_sloped h, sub_self, zero_mul, Int.zero_tdiv, add_zero, sat16_of_mem ta_lo ta_hi]

/-- A segment meets its second point. -/
theorem interpSegment_right (h : ma < mb) (tb_lo : -32768 ≤ tb) (tb_hi : tb ≤ 32767) :
    interpSegment ta ma tb mb mb = tb := by
  rw [interpSegment_sloped h.ne', Int.mul_tdiv_cancel_left _ (by omega), add_sub_cancel,
    sat16_of_mem tb_lo tb_hi]

/-- Between its measurements a rising segment stays between its temperatures. -/
theorem interpSegment_between (h : ma < mb) (ta_lo : -32768 ≤ ta) (rising : ta ≤ tb) (tb_hi : tb ≤ 32767)
    (hlo : ma ≤ m) (hhi : m ≤ mb) :
    ta ≤ interpSegment ta ma tb mb m ∧ interpSegment ta ma tb mb m ≤ tb := by
  have hnonneg : 0 ≤ (m - ma) * (tb - ta) := Int.mul_nonneg (by omega) (by omega)
  have hle : (m - ma) * (tb - ta) ≤ (tb - ta) * (mb - ma) := by
    rw [Int.mul_comm (tb - ta)]
    exact Int.mul_le_mul_of_nonneg_right (by omega) (by omega)
  have hquot : 0 ≤ ((m - ma) * (tb - ta)).tdiv (mb - ma)
      ∧ ((m - ma) * (tb - ta)).tdiv (mb - ma) ≤ tb - ta := by
    rw [Int.tdiv_eq_ediv_of_nonneg hnonneg]
    exact ⟨Int.ediv_nonneg hnonneg (by omega), Int.ediv_le_of_le_mul (by omega) hle⟩
  rw [interpSegment_sloped h.ne', sat16_of_mem (by omega) (by omega)]
  omega

theorem interpSegment_bounds (ta_lo : -32768 ≤ ta) (ta_hi : ta ≤ 32767) :
    -32768 ≤ interpSegment ta ma tb mb m ∧ interpSegment ta ma tb mb m ≤ 32767 := by
  unfold interpSegment
  split
  · exact ⟨ta_lo, ta_hi⟩
  · exact sat16_bounds _

end Segment

section Table

variable {r : TipRecord} {x : Int}

/-- The lower segment, its upper end included. -/
theorem interp3_lower (h : x ≤ (r.calM.get .i1).toNat) :
    interp3 r x = interpSegment (r.calT.get .i0).toNat (r.calM.get .i0).toNat (r.calT.get .i1).toNat
      (r.calM.get .i1).toNat x := if_pos h

theorem interp3_upper (h : (r.calM.get .i1).toNat < x) :
    interp3 r x = interpSegment (r.calT.get .i1).toNat (r.calM.get .i1).toNat (r.calT.get .i2).toNat
      (r.calM.get .i2).toNat x := if_neg (Int.not_le.2 h)

end Table

/-- Settles O30: the two segments, by the facts about one segment; at the middle point the lower segment ends
where the upper one begins. -/
theorem interpolationFollowsTheTable : Obligations.InterpolationFollowsTheTable := by
  intro r t m
  have nonneg (i : Idx3) : -32768 ≤ t i := (by decide : (-32768 : Int) ≤ 0).trans (Int.natCast_nonneg _)
  have middle (rising : m .i0 < m .i1) (ht : t .i1 ≤ 32767) : interp3 r (m .i1) = t .i1 :=
    (interp3_lower le_rfl).trans (interpSegment_right rising (nonneg _) ht)
  refine ⟨fun x hx hm => (interp3_lower hx).trans (interpSegment_sloped hm),
    fun x hx hm => (interp3_upper hx).trans (interpSegment_sloped hm),
    fun x => ⟨fun hx hm => (interp3_lower hx).trans (interpSegment_flat hm),
      fun hx hm => (interp3_upper hx).trans (interpSegment_flat hm)⟩,
    fun lower upper ht i => ?_, fun lower rising ht x hlo hhi => ?_,
    fun lower upper rising ht x hlo hhi => ?_, fun ht x => ?_⟩
  · cases i with
    | i0 => exact (interp3_lower lower.le).trans (interpSegment_left (nonneg _) (ht _))
    | i1 => exact middle lower (ht _)
    | i2 => exact (interp3_upper upper).trans (interpSegment_right upper (nonneg _) (ht _))
  · rw [interp3_lower hhi]
    exact interpSegment_between lower (nonneg _) rising ht hlo hhi
  · rcases hlo.eq_or_lt with rfl | hlt
    · rw [middle lower (rising.trans ht)]
      exact ⟨le_rfl, rising⟩
    · rw [interp3_upper hlt]
      exact interpSegment_between upper (nonneg _) rising ht hlo hhi
  · rcases lt_or_ge (m .i1) x with hx | hx
    · rw [interp3_upper hx]
      exact interpSegment_bounds (nonneg _) (ht _)
    · rw [interp3_lower hx]
      exact interpSegment_bounds (nonneg _) (ht _)

/-! The reads (R152, R160, R161) -/

/-- Settles O31: each read by its definition, on the averages and on the latest raw samples. -/
theorem measurementReads : Obligations.MeasurementReads := fun _ _ => ⟨rfl, rfl, rfl⟩

/-! Sample intake (R156 to R158) -/

/-- R151, R156: the codes of each iron's table, `BOOST` ignored, slot by slot. -/
theorem slotOf_eq (iron : Iron) (m : MuxCode) :
    let plain := m &&& 0xEF#8
    let couple := iron = .t12 ∨ iron = .jbc ∨ iron = .attenTweezers
    slotOf iron m =
      if (couple ∧ plain = 0x04#8) ∨ (iron = .weller ∧ plain = 0x08#8) then some .a
      else if iron = .attenTweezers ∧ plain = 0x06#8 then some .b
      else if couple ∧ plain = 0x0A#8 then some .c
      else none := by
  cases iron with
  | unknown | dummy => simp [slotOf, slotOfPlain]
  | t12 | jbc | attenTweezers | weller => simp [slotOf, slotOfPlain, mxTcA, mxTcB, mxPtcA, mxNtcB]; rfl

section Intake

variable {c : Chan} {m : MuxCode} (raw : BitVec 16) {s : State}

theorem exec_measProc_slot {slot : Slot} (h : slotOf (s.chan c).iron m = some slot) :
    exec (.measProc c m raw) s = .next (s.setChan c ((s.chan c).takeSample s.cfg slot raw)) := by
  change Host.Outcome.next (s.measProc c m raw).state = _
  rw [State.measProc, h]
  rfl

theorem exec_measProc_none (h : slotOf (s.chan c).iron m = none) :
    exec (.measProc c m raw) s = .next (s.raiseFatal .measMux) := by
  change Host.Outcome.next (s.measProc c m raw).state = _
  rw [State.measProc, h]
  rfl

end Intake

/-- Settles O32: the slot the table gives, or the trap. -/
theorem sampleIntake : Obligations.SampleIntake := by
  intro c m raw s ch v present plain couple
  have hslot := slotOf_eq (s.chan c).iron m
  dsimp only at hslot
  split_ifs at hslot ⊢ with ha hb hc
  · exact exec_measProc_slot raw hslot
  · exact exec_measProc_slot raw hslot
  · exact exec_measProc_slot raw hslot
  · exact exec_measProc_none raw hslot

/-! The controller update (R162, R140) -/

/-- The instruction of the controller step an iron's kind selects (R130). -/
def ctlStepOf (kind : CtrlKind) (c : Chan) (target actual : BitVec 16) : Instr :=
  match kind with
  | .pid => .pidStep c target actual
  | .tbh => .tbhStep c target actual

theorem exec_ctlStepOf (c : Chan) (target actual : BitVec 16) (s : State) :
    exec (ctlStepOf (s.cfg.ctrlKind.get (s.chan c).iron) c target actual) s
      = .next (s.handOver c ((s.chan c).ctlStep s.cfg target.toNat actual.toInt)) := by
  unfold ctlStepOf Channel.ctlStep
  cases s.cfg.ctrlKind.get (s.chan c).iron with
  | pid => exact exec_pidStep s c target actual
  | tbh => exact exec_tbhStep s c target actual

/-- R138: half the sum of an output and a 32-bit value. -/
theorem half_bounds {a : Int} (b : BitVec 32) (ha : 0 ≤ a ∧ a ≤ 100000) :
    -3000000000 ≤ (a + b.toInt).tdiv 2 ∧ (a + b.toInt).tdiv 2 ≤ 3000000000 := by
  have hlo := BitVec.le_toInt b
  have hhi := BitVec.toInt_lt (x := b)
  exact divT_bounds 2 (by omega) (by omega)

/-- A step of an enabled controller, of either kind, leaves it enabled; its output is within what R140 can
round. -/
theorem Channel.ctlStep_enabled {cfg : Config} (F : CfgFacts cfg) {ch : Channel} (on : ch.ctlEn = true)
    (target actual : Int) :
    let r := ch.ctlStep cfg target actual
    r.2.ctlEn = true ∧ -3000000000 ≤ r.1 ∧ r.1 ≤ 3000000000 := by
  have hout := F.out
  unfold Channel.ctlStep
  cases cfg.ctrlKind.get ch.iron with
  | pid =>
    have hpid := Channel.pidOutput_bounds F (target - actual) actual
      (ch.pidIntegral cfg (target - actual)) ch
    dsimp only
    rw [Channel.pidStep_enabled on]
    exact ⟨on, by omega, by omega⟩
  | tbh =>
    have hdamped := Channel.tbhDamped_bounds F (target - actual) actual ch
    dsimp only
    cases flip : ch.errFlips (target - actual) with
    | true =>
      rw [Channel.tbhStep_flip on flip]
      exact ⟨on, half_bounds _ ⟨hdamped.1, by omega⟩⟩
    | false =>
      rw [Channel.tbhStep_straight on flip]
      exact ⟨on, by omega, by omega⟩

theorem Channel.ctlStep_disabled {cfg : Config} {ch : Channel} (off : ch.ctlEn = false) (target actual : Int) :
    ch.ctlStep cfg target actual = (ch.curOut.toInt, ch) := by
  unfold Channel.ctlStep
  cases cfg.ctrlKind.get ch.iron with
  | pid => exact Channel.pidStep_disabled off target actual
  | tbh => exact Channel.tbhStep_disabled off target actual

/-- R140: the duty of such an output fits 32 bits. -/
theorem toInt_dutyOf {out : Int} (hlo : -3000000000 ≤ out) (hhi : out ≤ 3000000000) :
    (BitVec.ofInt 32 ((out + 500).tdiv 1000)).toInt = dutyOf out := by
  have habs : ((out + 500).tdiv 1000).natAbs = (out + 500).natAbs / 1000 := Int.natAbs_tdiv _ _
  exact toInt_ofInt_32 (by omega) (by omega)

section Update

variable {cfg : Config} {ch : Channel} (tips : List TipRecord) (target : Int)

theorem Channel.measUpd_unknown (h : ch.iron = .unknown) : ch.measUpd cfg tips target = ch := if_pos h

theorem Channel.measUpd_enabled (F : CfgFacts cfg) (known : ch.iron ≠ .unknown) (on : ch.ctlEn = true) :
    let r := ch.ctlStep cfg target (ch.measTemp cfg tips)
    ch.measUpd cfg tips target = r.2.dccSet cfg (dutyOf r.1) :=
  (if_neg known).trans (if_pos (Channel.ctlStep_enabled F on target _).1)

theorem Channel.measUpd_disabled (off : ch.ctlEn = false) : ch.measUpd cfg tips target = ch := by
  unfold Channel.measUpd
  split
  · rfl
  · rw [Channel.ctlStep_disabled off]
    exact if_neg (by simp [off])

end Update

theorem exec_measUpd (c : Chan) (target : BitVec 16) (s : State) :
    exec (.measUpd c target) s = .next (s.setChan c ((s.chan c).measUpd s.cfg s.tips target.toNat)) := rfl

theorem State.handOver_withRet (s : State) (c : Chan) (r : Int × Channel) :
    (s.handOver c r).withRet s.ret = s.setChan c r.2 := by cases c <;> rfl

/-- Settles O33: without an iron nothing happens; otherwise the step of the iron's kind, and its output is the
duty while the controller is enabled. -/
theorem controllerUpdate : Obligations.ControllerUpdate := by
  intro c target actual s legal hactual
  have F := configLegal_facts legal
  refine ⟨_, _, exec_ctlStepOf c target actual s, rfl, ?_⟩
  change _ = if _ then _ else if _ then Host.Outcome.next (after _ ((s.handOver c _).withRet s.ret))
    else Host.Outcome.next ((s.handOver c _).withRet s.ret)
  rw [State.handOver_withRet, after_dccSet, State.updChan_setChan, State.setChan_cfg, exec_measUpd, hactual]
  split_ifs with unknown on
  · rw [Channel.measUpd_unknown _ _ unknown, State.setChan_chan]
  · obtain ⟨-, hlo, hhi⟩ := Channel.ctlStep_enabled F on target.toNat ((s.chan c).measTemp s.cfg s.tips)
    rw [Channel.measUpd_enabled _ _ F unknown on, toInt_dutyOf hlo hhi]
  · have off := Bool.eq_false_iff.2 on
    rw [Channel.measUpd_disabled _ _ off, Channel.ctlStep_disabled off]

/-! The drive (R163, R199) -/

theorem Channel.isRunning_iff (ch : Channel) :
    ch.isRunning = true ↔ ch.state = .active ∨ ch.state = .setback ∨ ch.state = .fixedPower := by
  unfold Channel.isRunning
  cases ch.state <;> decide

theorem Channel.updDrive_running (cfg : Config) {ch : Channel} (h : ch.isRunning = true) :
    ch.updDrive cfg = { (ch.measDrive cfg).2 with drive := (ch.measDrive cfg).1 } := if_pos h

theorem Channel.updDrive_stopped (cfg : Config) {ch : Channel} (h : ¬ ch.isRunning = true) :
    ch.updDrive cfg = { ch with drive := 0, pwr := ch.pwr.push 0 } := if_neg h

theorem exec_measDrive (c : Chan) (s : State) :
    exec (.measDrive c) s = .next ((s.setChan c ((s.chan c).measDrive s.cfg).2).withRet
      (.number ((s.chan c).measDrive s.cfg).1.toNat)) := rfl

theorem exec_chUpddrive (c : Chan) (s : State) :
    exec (.chUpddrive c) s = .next (s.setChan c ((s.chan c).updDrive s.cfg)) := rfl

/-- Settles O34: the tick, the legs of the iron if it is on, and the power sample; a stopped channel is driven 0
without a tick. -/
theorem driveOperations : Obligations.DriveOperations := by
  intro c s u ch legs drive driven
  have hch : ch = (s.chan c).dccAdv := by
    change (after (.dccAdv c) s).chan c = _
    rw [after_dccAdv, State.chan_updChan]
  have hlegs : legs = ironLegs ch.iron := by
    dsimp only [legs]
    cases ch.iron <;> rfl
  have hdrive : (s.chan c).measDrive s.cfg = (drive, driven) := by
    simp only [Channel.measDrive, drive, driven, hlegs, hch]
  refine ⟨?_, ?_⟩
  · rw [exec_measDrive, hdrive]
    rfl
  · rw [exec_chUpddrive]
    split_ifs with running <;> rw [← Channel.isRunning_iff] at running
    · rw [Channel.updDrive_running _ running, hdrive]
    · rw [Channel.updDrive_stopped _ running]
      rfl

/-! Calibration points (R165 to R168, R170) -/

theorem Idx3.ofNum_num (p : Idx3) : Idx3.ofNum p.num = some p := by cases p <;> rfl

theorem Idx3.ofNum_of_lt {n : Nat} (h : 2 < n) : Idx3.ofNum n = none := by
  match n, h with
  | _ + 3, _ => rfl

theorem Idx3.exists_num {n : Nat} (h : n ≤ 2) : ∃ p : Idx3, n = p.num := by
  match n, h with
  | 0, _ => exact ⟨.i0, rfl⟩
  | 1, _ => exact ⟨.i1, rfl⟩
  | 2, _ => exact ⟨.i2, rfl⟩

/-- R160, R165: the mean of two non-negative values is rounded down. -/
theorem toNat_tcMean (cfg : Config) (a b : Nat) : (tcMean cfg a b).toNat = (tcUnits cfg a + tcUnits cfg b) / 2 := by
  have hsum : (0 : Int) ≤ (tcUnits cfg a : Int) + tcUnits cfg b := by omega
  rw [tcMean, divT, Int.tdiv_eq_ediv_of_nonneg hsum]
  omega

/-- R165: the value an iron's averages give for a calibration point, and whether it is plausible. -/
def Channel.calValue (cfg : Config) (ch : Channel) : Nat × Bool :=
  let cj := cjTemp cfg ch.avgC.avg
  let coupleOk (v : Nat) : Bool := decide (500 ≤ v ∧ v ≤ 12000 ∧ 0 ≤ cj ∧ cj ≤ 600)
  match ch.iron with
  | .t12 | .jbc => let v := tcUnits cfg ch.avgA.avg; (v, coupleOk v)
  | .attenTweezers => let v := (tcUnits cfg ch.avgA.avg + tcUnits cfg ch.avgB.avg) / 2; (v, coupleOk v)
  | .weller => let v := ptcUnits cfg ch.avgA.avg; (v, decide (cfg.calRMin ≤ v ∧ v ≤ cfg.calRMax))
  | .unknown | .dummy => (0, false)

/-- R7, R165: a thermocouple reading is plausible within the inclusive bounds of value and cold junction. -/
theorem couple_plausible (v : Nat) (cj : Int) :
    (decide (calTcMin ≤ v) && decide (v ≤ calTcMax) && (decide (calCjMin ≤ cj) && decide (cj ≤ calCjMax)))
      = decide (500 ≤ v ∧ v ≤ 12000 ∧ 0 ≤ cj ∧ cj ≤ 600) := by
  rw [Bool.eq_iff_iff]
  simp only [Bool.and_eq_true, decide_eq_true_eq]
  exact and_assoc

/-- R165: what CAL.SAVE stores is the value, when it is plausible. -/
theorem Channel.calReading_eq (cfg : Config) (ch : Channel) :
    ch.calReading cfg = if (ch.calValue cfg).2 then some (ch.calValue cfg).1 else none := by
  unfold Channel.calReading Channel.calValue
  cases ch.iron with
  | unknown | dummy => rfl
  | t12 | jbc => simp only [couple_plausible]
  | attenTweezers => simp only [couple_plausible, toNat_tcMean]
  | weller => simp only [decide_eq_true_eq]

section Point

variable {c : Chan} {idx : BitVec 4} {p : Idx3} {s : State}

theorem exec_calSave (hp : Idx3.ofNum idx.toNat = some p) :
    exec (.calSave c idx) s = .next (s.hostCommand fun s =>
      let r := (s.chan c).calValue s.cfg
      if (s.chan c).tip = tipNone then s.reject .noTip
      else if r.2 then (s.setPoint c p (calTemp.get p) (natWord r.1)).accept 1 else s.accept 0) := by
  change execCalSave c idx s = _
  unfold execCalSave
  simp only [hp, Channel.calReading_eq]
  congr 2
  funext s
  split_ifs <;> rfl

theorem exec_calSave_range (h : Idx3.ofNum idx.toNat = none) :
    exec (.calSave c idx) s = .next (s.hostCommand fun s => s.reject .range) := by
  change execCalSave c idx s = _
  rw [execCalSave, h]

theorem exec_calSet (hp : Idx3.ofNum idx.toNat = some p) (t : BitVec 16) (m : BitVec 32) :
    exec (.calSet c idx t m) s = .next (s.hostCommand fun s =>
      if 32767 < t.toNat ∨ 16777215 < m.toNat then s.reject .range
      else if (s.chan c).tip = tipNone then s.reject .noTip
      else (s.setPoint c p t m).accept 0) := by
  change execCalSet c idx t m s = _
  rw [execCalSet, hp]
  rfl

theorem exec_calSet_range (h : Idx3.ofNum idx.toNat = none) (t : BitVec 16) (m : BitVec 32) :
    exec (.calSet c idx t m) s = .next (s.hostCommand fun s => s.reject .range) := by
  change execCalSet c idx t m s = _
  rw [execCalSet, h]

theorem exec_calGett (hp : Idx3.ofNum idx.toNat = some p) :
    exec (.calGett c idx) s = .next (s.hostCommand fun s =>
      if (s.chan c).tip = tipNone then s.reject .noTip
      else s.accept (zext ((s.tip (s.chan c).tip.toNat).calT.get p))) := by
  change execCalGett c idx s = _
  rw [execCalGett, hp]

theorem exec_calGett_range (h : Idx3.ofNum idx.toNat = none) :
    exec (.calGett c idx) s = .next (s.hostCommand fun s => s.reject .range) := by
  change execCalGett c idx s = _
  rw [execCalGett, h]

theorem exec_calGetm (hp : Idx3.ofNum idx.toNat = some p) :
    exec (.calGetm c idx) s = .next (s.hostCommand fun s =>
      if (s.chan c).tip = tipNone then s.reject .noTip
      else s.accept ((s.tip (s.chan c).tip.toNat).calM.get p)) := by
  change execCalGetm c idx s = _
  rw [execCalGetm, hp]

theorem exec_calGetm_range (h : Idx3.ofNum idx.toNat = none) :
    exec (.calGetm c idx) s = .next (s.hostCommand fun s => s.reject .range) := by
  change execCalGetm c idx s = _
  rw [execCalGetm, h]

theorem State.setPoint_chan (t : BitVec 16) (m : BitVec 32) (d : Chan) : (s.setPoint c p t m).chan d = s.chan d :=
  State.setTip_chan ..

/-- The point just set, read back (R170). -/
theorem State.setPoint_tip (h : (s.chan c).tip.toNat < s.tips.length) (t : BitVec 16) (m : BitVec 32) :
    (s.setPoint c p t m).tip (s.chan c).tip.toNat = (s.tip (s.chan c).tip.toNat).setPoint p t m :=
  tipAt_set_same _ h

end Point

/-- Settles O54: the three indexes name their points, every other index is out of range. -/
theorem calibrationPointSaved : Obligations.CalibrationPointSaved := by
  intro c idx s ch n cj coupleOk reading saved save
  have saves (p : Idx3) (hp : idx.toNat = p.num) : exec (.calSave c idx) s
      = .next (if s.fatal then s.reject .halted else save p (calTemp.get p)) :=
    exec_calSave (hp ▸ Idx3.ofNum_num p)
  by_cases h0 : idx = 0
  · subst h0
    exact saves .i0 rfl
  by_cases h1 : idx = 1
  · subst h1
    exact saves .i1 rfl
  by_cases h2 : idx = 2
  · subst h2
    exact saves .i2 rfl
  · rw [if_neg h0, if_neg h1, if_neg h2]
    exact exec_calSave_range (Idx3.ofNum_of_lt (by bv_omega))

/-- Settles O55: the three commands by their definitions; the set leaves the channel's tip and its guards as they
are, so the reads find the record that was set. -/
theorem calibrationRoundTrip : Obligations.CalibrationRoundTrip := by
  refine ⟨fun c p idx t m s h => ?_, fun c idx t m s h running => ?_,
    fun c idx t m s u h ht hm running hslot (htip : _ ≠ tipNone) hset => ?_⟩
  · have hp : Idx3.ofNum idx.toNat = some p := h ▸ Idx3.ofNum_num p
    exact ⟨exec_calSet hp t m, exec_calGett hp, exec_calGetm hp⟩
  · have hnone := Idx3.ofNum_of_lt h
    rw [exec_calSet_range hnone, exec_calGett_range hnone, exec_calGetm_range hnone,
      State.hostCommand_running _ running]
    exact ⟨rfl, rfl, rfl⟩
  · obtain ⟨p, h⟩ := Idx3.exists_num h
    have hp : Idx3.ofNum idx.toNat = some p := h ▸ Idx3.ofNum_num p
    rw [exec_calSet hp, State.hostCommand_running _ running, if_neg (by omega), if_neg htip] at hset
    cases hset
    have running' : ((s.setPoint c p t m).accept 0).fatal = false := running
    rw [exec_calGett hp, exec_calGetm hp, State.hostCommand_running _ running',
      State.hostCommand_running _ running']
    simp only [State.accept_chan, State.accept_tip, State.setPoint_chan, State.setPoint_tip hslot,
      TipRecord.setPoint, Triple.get_set, if_true, zext]
    exact ⟨congrArg _ (if_neg htip), congrArg _ (if_neg htip)⟩

end Sys2Proof.Machine

/-! # The channel state machine (R180 to R199) -/

namespace Sys2Proof.Machine

/-! A stopped channel -/

/-- Nothing of the channel computes or drives (R180's rows outside the running states). -/
structure Quiet (ch : Channel) : Prop where
  stopped : ch.isRunning = false
  ctlEn : ch.ctlEn = false
  duty : ch.duty = 0
  on : ch.on = false
  drive : ch.drive = 0

theorem isHeating_of_stopped {st : ChState} (h : st.isRunning = false) : st.isHeating = false :=
  Bool.eq_false_iff.2 fun heating => absurd ((isRunning_of_isHeating heating).symm.trans h) nofun

theorem StateInv.quiet {ch : Channel} (h : StateInv ch) (stopped : ch.isRunning = false) : Quiet ch := by
  obtain ⟨-, -, hctl, hstop, -⟩ := h
  obtain ⟨hduty, hon, hdrive⟩ := hstop stopped
  refine ⟨stopped, Bool.eq_false_iff.2 fun on => ?_, hduty, hon, hdrive⟩
  exact absurd ((hctl.2 on).symm.trans (isHeating_of_stopped stopped)) nofun

/-! SetState, target by target (R185) -/

theorem Channel.ctlEnable_off (ch : Channel) : ch.ctlEnable false = { ch with ctlEn := false } := by
  cases h : ch.ctlEn with
  | true => exact Channel.ctlEnable_false h
  | false =>
    rw [Channel.ctlEnable_same h.symm]
    cases ch
    cases h
    rfl

theorem Channel.setState_same {cfg : Config} {tgt : SetTarget} {ch : Channel} (h : targetState tgt = ch.state) :
    ch.setState cfg tgt = ch := if_pos h

theorem Channel.setState_ne {cfg : Config} {tgt : SetTarget} {ch : Channel} (h : targetState tgt ≠ ch.state) :
    ch.setState cfg tgt
      = Channel.enterState cfg tgt ch.state { ch.exitRunning tgt with state := targetState tgt } := if_neg h

/-- R185: a channel that stops running, or changes between heating and fixed power. -/
theorem Channel.exitRunning_leave {tgt : SetTarget} {ch : Channel} (running : ch.isRunning = true)
    (leaves : (ch.state.isHeating && (targetState tgt).isHeating) = false) :
    ch.exitRunning tgt = { ch with ctlEn := false, duty := 0, on := false, drive := 0 } := by
  unfold Channel.exitRunning
  rw [if_pos (by rw [leaves]; simpa [Channel.isRunning] using running), Channel.ctlEnable_off]

theorem Channel.exitRunning_stopped {tgt : SetTarget} {ch : Channel} (stopped : ch.isRunning = false) :
    ch.exitRunning tgt = ch := by
  unfold Channel.isRunning at stopped
  simp [Channel.exitRunning, stopped]

theorem Quiet.eq {ch : Channel} (h : Quiet ch) :
    ch = { ch with ctlEn := false, duty := 0, on := false, drive := 0 } := by
  obtain ⟨-, hctl, hduty, hon, hdrive⟩ := h
  cases ch
  cases hctl
  cases hduty
  cases hon
  cases hdrive
  rfl

/-- R185: either way the channel is quiet after its exit action, unless it stays heating. -/
theorem Channel.exitRunning_quiet {tgt : SetTarget} {ch : Channel} (quiet : ch.isRunning = false → Quiet ch)
    (leaves : (ch.state.isHeating && (targetState tgt).isHeating) = false) :
    ch.exitRunning tgt = { ch with ctlEn := false, duty := 0, on := false, drive := 0 } := by
  cases running : ch.isRunning with
  | true => exact Channel.exitRunning_leave running leaves
  | false => exact (Channel.exitRunning_stopped running).trans (quiet running).eq

/-- The targets of SetState without supply and LED (R180). -/
def RestTarget (tgt : SetTarget) : Prop := tgt = .off ∨ tgt = .noTool ∨ tgt = .noTip

/-- The channel switched to a state without supply, LED and drive (R180, R185). -/
def Channel.atRest (tgt : SetTarget) (ch : Channel) : Channel :=
  { ch with
    state := targetState tgt, ctlEn := false, duty := 0, on := false, drive := 0, voltSel := 0, led := false }

/-- The channel switched to `active` from a state in which it did not heat (R185, R132). -/
def Channel.switchedOn (cfg : Config) (ch : Channel) : Channel :=
  { ch with
    state := .active, ctlEn := true, iAcc := BitVec.ofInt 64 (ch.curOut.toInt * accPerMp)
    tbhPrev := ch.curOut, haveIn := false, haveErr := false, duty := 0, on := false, drive := 0
    voltSel := vselOf cfg ch.iron, led := true, idleMs := 0 }

/-- The channel switched to `fixedPower` from another state (R185). -/
def Channel.fixedOn (cfg : Config) (ch : Channel) : Channel :=
  { ch with
    state := .fixedPower, ctlEn := false, duty := (ch.dccSet cfg ch.fixedDuty.toNat).duty, on := false
    drive := 0, voltSel := vselOf cfg ch.iron, led := true, idleMs := 0 }

section SetState

variable {cfg : Config} {ch : Channel} {tgt : SetTarget}

theorem Channel.setState_atRest_of_ne (rest : RestTarget tgt) (quiet : ch.isRunning = false → Quiet ch)
    (h : targetState tgt ≠ ch.state) : ch.setState cfg tgt = ch.atRest tgt := by
  rw [Channel.setState_ne h]
  rcases rest with rfl | rfl | rfl <;> rw [Channel.exitRunning_quiet quiet (Bool.and_false _)] <;> rfl

theorem Channel.setState_active_of_stopped (quiet : ch.isRunning = false → Quiet ch)
    (h : ch.state.isHeating = false) : ch.setState cfg .active = ch.switchedOn cfg := by
  rw [Channel.setState_ne (by rintro heating; rw [← heating] at h; cases h),
    Channel.exitRunning_quiet quiet (by rw [h]; rfl)]
  simp only [Channel.enterState, h, Bool.false_eq_true, if_false]
  rw [Channel.ctlEnable_true rfl]
  rfl

theorem Channel.setState_active_of_setback (h : ch.state = .setback) :
    ch.setState cfg .active = { ch with
      state := .active, voltSel := vselOf cfg ch.iron, led := true, idleMs := 0 } := by
  rw [Channel.setState_ne (by rw [h]; decide)]
  simp [Channel.enterState, Channel.exitRunning, targetState, h, ChState.isHeating]

theorem Channel.setState_setback_of_active (h : ch.state = .active) :
    ch.setState cfg .setback = { ch with state := .setback } := by
  rw [Channel.setState_ne (by rw [h]; decide)]
  simp [Channel.enterState, Channel.exitRunning, targetState, h, ChState.isHeating]

theorem Channel.setState_fixedPower_of_ne (quiet : ch.isRunning = false → Quiet ch) (h : ch.state ≠ .fixedPower) :
    ch.setState cfg .fixedPower = ch.fixedOn cfg := by
  rw [Channel.setState_ne (tgt := .fixedPower) h.symm, Channel.exitRunning_quiet quiet (Bool.and_false _)]
  rfl

end SetState

/-! The invariants that do not look at the tip pool -/

/-- The invariants of a channel but for its tip reference (R25, R29, R30, R180). -/
def ChannelOk (cfg : Config) (ch : Channel) : Prop :=
  DutyInv cfg ch ∧ StateInv ch ∧ PinsInv cfg ch ∧ RangesInv cfg ch ∧ OutputInv cfg ch

theorem channelInv_iff {cfg : Config} {tips : List TipRecord} {ch : Channel} :
    ChannelInv cfg tips ch ↔ ChannelOk cfg ch ∧ TipRefInv cfg tips ch := by
  unfold ChannelInv ChannelOk
  tauto

theorem ChannelOk.reset {cfg : Config} (F : CfgFacts cfg) : ChannelOk cfg (Channel.reset cfg) :=
  ⟨reset_dutyInv cfg, reset_stateInv cfg, reset_pinsInv cfg, reset_rangesInv F, reset_outputInv cfg⟩

/-- R180: what a quiet channel is to satisfy. -/
theorem ChannelOk.of_quiet {cfg : Config} {ch : Channel} (quiet : Quiet ch) (acc : ch.acc.toNat < dccResolution)
    (fixed : ch.fixedDuty.toNat ≤ 100)
    (unknown : ch.iron = .unknown → ch.state = .noTool ∨ ch.state = .overload ∨ ch.state = .off)
    (noTool : ch.state = .noTool → ch.iron = .unknown)
    (pins : ch.state = .off ∨ ch.state = .noTool ∨ ch.state = .noTip → ch.voltSel = 0 ∧ ch.led = false)
    (ranges : RangesInv cfg ch) (output : OutputInv cfg ch) : ChannelOk cfg ch := by
  obtain ⟨stopped, hctl, hduty, hon, hdrive⟩ := quiet
  have cold : ¬ ch.state.isHeating = true := Bool.eq_false_iff.1 (isHeating_of_stopped stopped)
  refine ⟨⟨acc, ?_, fixed⟩, ⟨unknown, noTool, ?_, fun _ => ⟨hduty, hon, hdrive⟩, fun h => absurd h cold⟩,
    ⟨pins, fun h => absurd (h.symm.trans stopped) nofun, .inl hdrive⟩, ranges, output⟩
  · rw [hduty]
    exact Nat.zero_le _
  · exact ⟨fun h => absurd h cold, fun h => absurd (h.symm.trans hctl) nofun⟩

section ChannelOk

variable {cfg : Config} {ch : Channel}

theorem ChannelOk.stateInv (h : ChannelOk cfg ch) : StateInv ch := by
  obtain ⟨-, state, -⟩ := h
  exact state

theorem ChannelOk.pinsInv (h : ChannelOk cfg ch) : PinsInv cfg ch := by
  obtain ⟨-, -, pins, -⟩ := h
  exact pins

/-- R180: a running channel has its supply and its LED on. -/
theorem PinsInv.lit (h : PinsInv cfg ch) (running : ch.isRunning = true) :
    ch.voltSel = vselOf cfg ch.iron ∧ ch.led = true := by
  obtain ⟨-, lit, -⟩ := h
  exact lit running

/-- R180: a channel at rest has neither. -/
theorem PinsInv.unlit (h : PinsInv cfg ch) (rest : ch.state = .off ∨ ch.state = .noTool ∨ ch.state = .noTip) :
    ch.voltSel = 0 ∧ ch.led = false := by
  obtain ⟨unlit, -⟩ := h
  exact unlit rest

theorem ChannelOk.quiet (h : ChannelOk cfg ch) (stopped : ch.isRunning = false) : Quiet ch :=
  h.stateInv.quiet stopped

/-- R180: a channel with a known iron is not in `noTool`. -/
theorem StateInv.ne_noTool (h : StateInv ch) (known : ch.iron ≠ .unknown) : ch.state ≠ .noTool := by
  obtain ⟨-, hnoTool, -⟩ := h
  exact fun noTool => known (hnoTool noTool)

/-- R180: a running channel has a known iron. -/
theorem StateInv.known (h : StateInv ch) (running : ch.isRunning = true) : ch.iron ≠ .unknown := by
  obtain ⟨hunknown, -⟩ := h
  intro unknown
  unfold Channel.isRunning at running
  rcases hunknown unknown with hst | hst | hst <;> rw [hst] at running <;> cases running

theorem ChannelOk.atRest (h : ChannelOk cfg ch) {tgt : SetTarget} (rest : RestTarget tgt)
    (noTool : tgt = .noTool → ch.iron = .unknown) (noTip : tgt = .noTip → ch.iron ≠ .unknown) :
    ChannelOk cfg (ch.atRest tgt) := by
  obtain ⟨⟨acc, -, fixed⟩, -, -, ranges, output⟩ := h
  refine .of_quiet ⟨?_, rfl, rfl, rfl, rfl⟩ acc fixed ?_ ?_ (fun _ => ⟨rfl, rfl⟩) ranges output
  · rcases rest with rfl | rfl | rfl <;> rfl
  · intro unknown
    rcases rest with rfl | rfl | rfl
    · exact .inr (.inr rfl)
    · exact .inl rfl
    · exact absurd unknown (noTip rfl)
  · rcases rest with rfl | rfl | rfl
    · nofun
    · exact fun _ => noTool rfl
    · nofun

/-- R180, R185: SetState to a state without supply. -/
theorem Channel.setState_atRest (h : ChannelOk cfg ch) {tgt : SetTarget} (rest : RestTarget tgt) :
    ch.setState cfg tgt = ch.atRest tgt := by
  by_cases same : targetState tgt = ch.state
  · have stopped : ch.isRunning = false := by
      unfold Channel.isRunning
      rw [← same]
      rcases rest with rfl | rfl | rfl <;> rfl
    obtain ⟨hvolt, hled⟩ : ch.voltSel = 0 ∧ ch.led = false := by
      refine h.pinsInv.unlit ?_
      rw [← same]
      rcases rest with rfl | rfl | rfl <;> simp [targetState]
    rw [Channel.setState_same same, (h.quiet stopped).eq]
    unfold Channel.atRest
    rw [same, ← hvolt, ← hled]
  · exact Channel.setState_atRest_of_ne rest h.quiet same

theorem ChannelOk.setState_atRest (h : ChannelOk cfg ch) {tgt : SetTarget} (rest : RestTarget tgt)
    (noTool : tgt = .noTool → ch.iron = .unknown) (noTip : tgt = .noTip → ch.iron ≠ .unknown) :
    ChannelOk cfg (ch.setState cfg tgt) := by
  rw [Channel.setState_atRest h rest]
  exact h.atRest rest noTool noTip

end ChannelOk

/-! Switching on (R185, R187, R205) -/

theorem ironKnown_of_ne {t : Iron} (h : t ≠ .unknown) : ironKnown t = true := by
  cases t with
  | unknown => exact absurd rfl h
  | t12 | jbc | attenTweezers | weller | dummy => rfl

/-- R121: a duty that was set is within the iron's limit. -/
theorem Channel.dccSet_duty_le {cfg : Config} (F : CfgFacts cfg) (d : Int) (ch : Channel) :
    (ch.dccSet cfg d).duty.toNat ≤ cfg.dccUpper.get ch.iron := by
  have hupper := F.upper ch.iron
  obtain ⟨hlo, hhi⟩ := clamp_bounds d (Int.natCast_nonneg (cfg.dccUpper.get ch.iron))
  have hduty := toNat_ofInt_7 hlo (by omega)
  simp only [Channel.dccSet]
  omega

section SwitchOn

variable {cfg : Config} {ch : Channel}

theorem ChannelOk.switchedOn (h : ChannelOk cfg ch) (known : ch.iron ≠ .unknown) (tip : ch.tip ≠ tipNone) :
    ChannelOk cfg (ch.switchedOn cfg) := by
  obtain ⟨⟨acc, -, fixed⟩, -, -, ranges, hlo, hhi, -, -⟩ := h
  exact ⟨⟨acc, Nat.zero_le _, fixed⟩,
    ⟨fun unknown => absurd unknown known, nofun, ⟨fun _ => rfl, fun _ => rfl⟩, nofun,
      fun _ => ⟨tip, ironKnown_of_ne known⟩⟩,
    ⟨nofun, fun _ => ⟨rfl, rfl⟩, .inl rfl⟩, ranges, hlo, hhi, hlo, hhi⟩

theorem ChannelOk.fixedOn (F : CfgFacts cfg) (h : ChannelOk cfg ch) (known : ch.iron ≠ .unknown) :
    ChannelOk cfg (ch.fixedOn cfg) := by
  obtain ⟨⟨acc, -, fixed⟩, -, -, ranges, output⟩ := h
  exact ⟨⟨acc, Channel.dccSet_duty_le F _ ch, fixed⟩,
    ⟨fun unknown => absurd unknown known, nofun, ⟨nofun, nofun⟩, nofun, nofun⟩,
    ⟨nofun, fun _ => ⟨rfl, rfl⟩, .inl rfl⟩, ranges, output⟩

/-- R185, R187: between `active` and `setback` the controller keeps running. -/
theorem ChannelOk.move_heating (h : ChannelOk cfg ch) (heating : ch.state.isHeating = true) {st : ChState}
    (hst : st.isHeating = true) (idle : BitVec 32) :
    ChannelOk cfg { ch with state := st, voltSel := vselOf cfg ch.iron, led := true, idleMs := idle } := by
  have known := h.stateInv.known (isRunning_of_isHeating heating)
  have running := isRunning_of_isHeating hst
  obtain ⟨duty, ⟨-, -, hctl, -, htip⟩, ⟨-, -, legs⟩, ranges, output⟩ := h
  refine ⟨duty, ⟨fun unknown => absurd unknown known, ?_,
      ⟨fun _ => hctl.1 heating, fun _ => hst⟩,
      fun stopped => absurd (running.symm.trans stopped) nofun, fun _ => htip heating⟩,
    ⟨?_, fun _ => ⟨rfl, rfl⟩, legs⟩, ranges, output⟩
  · rintro rfl
    cases hst
  · rintro (rfl | rfl | rfl) <;> cases hst

theorem ChannelOk.setState_setback (h : ChannelOk cfg ch) (active : ch.state = .active) :
    ChannelOk cfg (ch.setState cfg .setback) := by
  have running : ch.isRunning = true := by unfold Channel.isRunning; rw [active]; rfl
  obtain ⟨hvolt, hled⟩ := h.pinsInv.lit running
  have moved := h.move_heating (by rw [active]; rfl) (st := .setback) rfl ch.idleMs
  rw [← hvolt, ← hled] at moved
  rw [Channel.setState_setback_of_active active]
  exact moved

theorem ChannelOk.setState_active (h : ChannelOk cfg ch) (known : ch.iron ≠ .unknown) (tip : ch.tip ≠ tipNone) :
    ChannelOk cfg (ch.setState cfg .active) := by
  by_cases active : ch.state = .active
  · rwa [Channel.setState_same (tgt := .active) active.symm]
  by_cases setback : ch.state = .setback
  · rw [Channel.setState_active_of_setback setback]
    exact h.move_heating (by rw [setback]; rfl) rfl 0
  · have cold : ch.state.isHeating = false := by
      cases hst : ch.state <;> simp_all [ChState.isHeating]
    rw [Channel.setState_active_of_stopped h.quiet cold]
    exact h.switchedOn known tip

theorem ChannelOk.setState_fixedPower (F : CfgFacts cfg) (h : ChannelOk cfg ch) (known : ch.iron ≠ .unknown) :
    ChannelOk cfg (ch.setState cfg .fixedPower) := by
  by_cases fixed : ch.state = .fixedPower
  · rwa [Channel.setState_same (tgt := .fixedPower) fixed.symm]
  · rw [Channel.setState_fixedPower_of_ne h.quiet fixed]
    exact h.fixedOn F known

theorem ChannelOk.interact (h : ChannelOk cfg ch) : ChannelOk cfg (ch.interact cfg) := by
  have timed : ChannelOk cfg { ch with idleMs := 0 } := h
  unfold Channel.interact
  dsimp only
  split
  · next setback =>
    rw [Channel.setState_active_of_setback (ch := { ch with idleMs := 0 }) setback]
    exact timed.move_heating (by rw [setback]; rfl) rfl 0
  · exact timed

theorem ChannelOk.switchOff (h : ChannelOk cfg ch) : ChannelOk cfg (ch.setState cfg ch.offTarget) := by
  unfold Channel.offTarget
  split
  · exact h.setState_atRest (.inl rfl) nofun nofun
  · next unknown =>
    refine h.setState_atRest (.inr (.inl rfl)) (fun _ => ?_) nofun
    exact by_contra fun known => unknown (ironKnown_of_ne known)

theorem ChannelOk.setOverload (h : ChannelOk cfg ch) : ChannelOk cfg ch.setOverload := by
  obtain ⟨⟨acc, -, fixed⟩, -, -, ranges, output⟩ := h
  exact .of_quiet ⟨rfl, rfl, rfl, rfl, rfl⟩ acc fixed (fun _ => .inr (.inl rfl)) nofun nofun ranges output

/-- R221, R283: the drive may be cut at any time. -/
theorem ChannelOk.driveOff (h : ChannelOk cfg ch) : ChannelOk cfg { ch with drive := 0 } := by
  obtain ⟨duty, ⟨hunknown, hnoTool, hctl, hstop, htip⟩, ⟨hrest, hon, -⟩, ranges, output⟩ := h
  refine ⟨duty, ⟨hunknown, hnoTool, hctl, fun stopped => ?_, htip⟩, ⟨hrest, hon, .inl rfl⟩, ranges, output⟩
  obtain ⟨hduty, hdec, -⟩ := hstop stopped
  exact ⟨hduty, hdec, rfl⟩

end SwitchOn

/-! Identification (R191, R194, R195) -/

/-- R194: dropping an iron leaves the channel in `noTool`, or in `overload`. -/
theorem Channel.dropIron_state (cfg : Config) (ch : Channel) :
    (ch.dropIron cfg).state = if ch.state = .overload then .overload else .noTool := by
  unfold Channel.dropIron
  dsimp only [Channel.measReset]
  split
  · assumption
  · exact Channel.setState_state cfg .noTool ch

/-- R194, R195: what a channel takes from its tip: the references to it and its gains. -/
def Channel.withTip (ch : Channel) (tip : BitVec 8) (selected : BitVec 16) (k : Quad (BitVec 32)) : Channel :=
  { ch with tip := tip, selectedTip := selected, k := k }

/-- R194: a channel with its new iron, a fresh block and a tip leaves `noTool`. -/
theorem Channel.takeIron_cases (cfg : Config) (tips : List TipRecord) (t : Iron) (ch : Channel) :
    ∃ tip selected k, let y := ({ ch with iron := t }.measReset cfg).withTip tip selected k
      (ch.takeIron cfg tips t).1 = if ch.state = .noTool then y.setState cfg .off else y := by
  have frame := Channel.tipSel_frame cfg tips (Channel.measReset cfg { ch with iron := t })
  unfold Channel.takeIron
  generalize Channel.tipSel cfg tips (Channel.measReset cfg { ch with iron := t }) = r at frame
  dsimp only at frame ⊢
  split
  · exact ⟨r.1.tip, r.1.selectedTip, ch.k, by rw [frame]; rfl⟩
  · exact ⟨r.1.tip, r.1.selectedTip, (tipAt r.2 r.1.tip.toNat).k, by rw [frame]; rfl⟩

section Identification

variable {cfg : Config} {ch : Channel}

/-- R155, R180: a fresh block leaves a stopped channel without drive quiet. -/
theorem ChannelOk.measReset (stopped : ch.isRunning = false) (drive : ch.drive = 0)
    (fixed : ch.fixedDuty.toNat ≤ 100)
    (unknown : ch.iron = .unknown → ch.state = .noTool ∨ ch.state = .overload ∨ ch.state = .off)
    (noTool : ch.state = .noTool → ch.iron = .unknown)
    (pins : ch.state = .off ∨ ch.state = .noTool ∨ ch.state = .noTip → ch.voltSel = 0 ∧ ch.led = false)
    (ranges : RangesInv cfg ch) : ChannelOk cfg (ch.measReset cfg) :=
  .of_quiet ⟨stopped, rfl, rfl, rfl, drive⟩ (Nat.zero_lt_succ _) fixed unknown noTool pins ranges
    ⟨le_rfl, Int.natCast_nonneg _, le_rfl, Int.natCast_nonneg _⟩

theorem ChannelOk.dropIron (h : ChannelOk cfg ch) (stopped : ch.isRunning = false) :
    ChannelOk cfg (ch.dropIron cfg) := by
  have hdrive := (h.quiet stopped).drive
  have rest := Channel.setState_atRest h (tgt := .noTool) (.inr (.inl rfl))
  obtain ⟨⟨-, -, fixed⟩, -, -, ranges, -⟩ := h
  unfold Channel.dropIron
  split
  · next overload =>
    exact .measReset (ch := { ch with voltSel := 0, led := false, iron := .unknown, tip := tipNone }) stopped hdrive
      fixed (fun _ => .inr (.inl overload)) (fun _ => rfl) (fun _ => ⟨rfl, rfl⟩) ranges
  · rw [rest]
    exact .measReset (ch := { ch.atRest .noTool with iron := .unknown, tip := tipNone }) rfl rfl
      fixed (fun _ => .inl rfl) (fun _ => rfl) (fun _ => ⟨rfl, rfl⟩) ranges

theorem ChannelOk.takeIron (h : ChannelOk cfg ch) (stopped : ch.isRunning = false) (tips : List TipRecord)
    {t : Iron} (known : t ≠ .unknown) : ChannelOk cfg (ch.takeIron cfg tips t).1 := by
  have hdrive := (h.quiet stopped).drive
  obtain ⟨⟨-, -, fixed⟩, -, ⟨pins, -⟩, ranges, -⟩ := h
  obtain ⟨tip, selected, k, htake⟩ := Channel.takeIron_cases cfg tips t ch
  have quiet : Quiet (({ ch with iron := t }.measReset cfg).withTip tip selected k) :=
    ⟨stopped, rfl, rfl, rfl, hdrive⟩
  rw [htake]
  split
  · next noTool =>
    rw [Channel.setState_atRest_of_ne (.inl rfl) (fun _ => quiet) (noTool.symm ▸ nofun)]
    exact .measReset (ch := { (ch.withTip tip selected k).atRest .off with iron := t }) rfl rfl fixed
      (fun unknown => absurd unknown known) nofun (fun _ => ⟨rfl, rfl⟩) ranges
  · next hstate =>
    exact .measReset (ch := { ch.withTip tip selected k with iron := t }) stopped hdrive fixed
      (fun unknown => absurd unknown known) (fun noTool => absurd noTool hstate) pins ranges

theorem ChannelOk.setIron (h : ChannelOk cfg ch) (stopped : ch.isRunning = false) (tips : List TipRecord)
    (t : Iron) : ChannelOk cfg (ch.setIron cfg tips t).1 := by
  unfold Channel.setIron
  split
  · next same =>
    dsimp only
    split
    · next first => exact h.setState_atRest (.inr (.inl rfl)) (fun _ => same.symm.trans first.1) nofun
    · exact h
  · dsimp only
    have hdropped : ChannelOk cfg (if ch.iron = .unknown then ch else ch.dropIron cfg)
        ∧ (if ch.iron = .unknown then ch else ch.dropIron cfg).isRunning = false := by
      split
      · exact ⟨h, stopped⟩
      · refine ⟨h.dropIron stopped, ?_⟩
        unfold Channel.isRunning
        rw [Channel.dropIron_state]
        split <;> rfl
    split
    · exact hdropped.1
    · next known => exact hdropped.1.takeIron hdropped.2 tips known

theorem ChannelOk.ident (h : ChannelOk cfg ch) (stopped : ch.isRunning = false) (tips : List TipRecord)
    (raw : Nat) : ChannelOk cfg (ch.ident cfg tips raw).1 :=
  ChannelOk.setIron (ch := { ch with idOhms := BitVec.ofNat 32 (idResistance cfg raw) }) h stopped tips _

end Identification

/-! The control update (R228) -/

section Update

variable {cfg : Config} {ch : Channel}

theorem ChannelOk.idle (h : ChannelOk cfg ch) (ms : Nat) : ChannelOk cfg (ch.idle cfg ms) := by
  have timed : ChannelOk cfg { ch with idleMs := BitVec.ofNat 32 (satu32 (ch.idleMs.toNat + ms)) } := h
  unfold Channel.idle
  dsimp only
  split
  · exact timed.setState_atRest (.inl rfl) nofun nofun
  split
  · next active => exact timed.setState_setback active.1
  · exact timed

theorem ChannelOk.noTip (h : ChannelOk cfg ch) (heating : ch.state.isHeating = true) :
    ChannelOk cfg (ch.setState cfg .noTip) :=
  h.setState_atRest (.inr (.inr rfl)) nofun fun _ => h.stateInv.known (isRunning_of_isHeating heating)

/-- R29, R134, R138: a step of either controller keeps its output and what it takes back in range. -/
theorem OutputInv.ctlStep (F : CfgFacts cfg) (h : OutputInv cfg ch) (target actual : Int) :
    OutputInv cfg (ch.ctlStep cfg target actual).2 := by
  have hout := F.out
  cases on : ch.ctlEn with
  | false => rwa [Channel.ctlStep_disabled on]
  | true =>
  obtain ⟨-, -, hlo, hhi⟩ := h
  unfold Channel.ctlStep
  cases cfg.ctrlKind.get ch.iron with
  | pid =>
    obtain ⟨hmin, hmax⟩ := Channel.pidOutput_bounds F (target - actual) actual
      (ch.pidIntegral cfg (target - actual)) ch
    dsimp only
    rw [Channel.pidStep_enabled on]
    simp only [OutputInv, F.toInt_output (by omega) hmax]
    exact ⟨by omega, hmax, hlo, hhi⟩
  | tbh =>
    have hdamped := Channel.tbhDamped_bounds F (target - actual) actual ch
    dsimp only
    cases flip : ch.errFlips (target - actual) with
    | true =>
      obtain ⟨hmin, hmax⟩ := mean_bounds hdamped ⟨hlo, hhi⟩
      rw [Channel.tbhStep_flip on flip]
      simp only [OutputInv, Channel.tbhKept, F.toInt_output hmin hmax]
      exact ⟨hmin, hmax, hmin, hmax⟩
    | false =>
      rw [Channel.tbhStep_straight on flip]
      simp only [OutputInv, Channel.tbhKept, F.toInt_output hdamped.1 hdamped.2]
      exact ⟨hdamped.1, hdamped.2, hlo, hhi⟩

theorem ChannelOk.measUpd (F : CfgFacts cfg) (h : ChannelOk cfg ch) (tips : List TipRecord) (target : Int) :
    ChannelOk cfg (ch.measUpd cfg tips target) := by
  by_cases unknown : ch.iron = .unknown
  · rwa [Channel.measUpd_unknown _ _ unknown]
  cases on : ch.ctlEn with
  | false => rwa [Channel.measUpd_disabled _ _ on]
  | true =>
    have frame := Channel.measUpd_frame cfg tips target ch
    have update := Channel.measUpd_enabled tips target F unknown on
    obtain ⟨⟨acc, -, fixed⟩, ⟨hunknown, hnoTool, hctl, -, htip⟩, pins, ranges, output⟩ := h
    have running : ch.isRunning = true := isRunning_of_isHeating (hctl.2 on)
    have houtput : OutputInv cfg (ch.measUpd cfg tips target) := by
      rw [update]
      exact output.ctlStep F target _
    have hduty : (ch.measUpd cfg tips target).duty.toNat ≤ cfg.dccUpper.get (ch.measUpd cfg tips target).iron := by
      rw [update]
      exact Channel.dccSet_duty_le F _ _
    generalize ch.measUpd cfg tips target = x at frame houtput hduty
    dsimp only at frame
    rw [frame] at houtput hduty ⊢
    exact ⟨⟨acc, hduty, fixed⟩,
      ⟨hunknown, hnoTool, hctl, fun stopped => absurd (running.symm.trans stopped) nofun, htip⟩, pins, ranges,
      houtput⟩

theorem ChannelOk.updDrive (F : CfgFacts cfg) (h : ChannelOk cfg ch) : ChannelOk cfg (ch.updDrive cfg) := by
  by_cases running : ch.isRunning = true
  · rw [Channel.updDrive_running cfg running]
    obtain ⟨⟨acc, duty, fixed⟩, ⟨hunknown, hnoTool, hctl, -, htip⟩, ⟨hrest, hon, -⟩, ranges, output⟩ := h
    have hacc := Channel.dccAdv_acc_lt acc (duty.trans (F.upper _))
    unfold Channel.measDrive
    rw [Channel.dccAdv_frame]
    refine ⟨⟨hacc, duty, fixed⟩,
      ⟨hunknown, hnoTool, hctl, fun stopped => absurd (running.symm.trans stopped) nofun, htip⟩,
      ⟨hrest, hon, ?_⟩, ranges, output⟩
    dsimp only
    split
    · exact .inr rfl
    · exact .inl rfl
  · rw [Channel.updDrive_stopped cfg running]
    exact h.driveOff

theorem ChannelOk.update (F : CfgFacts cfg) (h : ChannelOk cfg ch) (tips : List TipRecord) :
    ChannelOk cfg (ch.update cfg tips) := by
  have hidle := h.idle cfg.idleTickMs
  unfold Channel.update
  dsimp only
  refine ChannelOk.updDrive F (ChannelOk.measUpd F ?_ tips _)
  split
  · next missing => exact hidle.noTip missing.1
  · exact hidle

theorem ChannelOk.buildPart (F : CfgFacts cfg) (h : ChannelOk cfg ch) : ChannelOk cfg (ch.buildPart cfg).2 := by
  obtain ⟨duty, state, pins, ⟨huser, hsetback, hpresets, -⟩, output⟩ := h
  have hident : (ch.buildPart cfg).2.identCnt.toNat < cfg.identInterval := by
    have hinterval := F.ident
    unfold Channel.buildPart
    dsimp only
    split
    · exact hinterval.1
    split
    · exact hinterval.1
    · next more =>
      rw [BitVec.toNat_ofNat]
      omega
  rw [Channel.buildPart_frame]
  exact ⟨duty, state, pins, ⟨huser, hsetback, hpresets, hident⟩, output⟩

theorem ChannelOk.takeSample (h : ChannelOk cfg ch) (slot : Slot) (raw : BitVec 16) :
    ChannelOk cfg (ch.takeSample cfg slot raw) := by
  cases slot <;> exact h

end Update

end Sys2Proof.Machine

/-! # The invariants of the channels under every step (R30, R180, R254) -/

namespace Sys2Proof.Machine

/-! Every step -/

/-- Both channels meet the invariants that do not look at the tip pool. -/
def AllChannelsOk (s : State) : Prop := ∀ c, ChannelOk s.cfg (s.chan c)

theorem allChannelsOk_iff (s : State) : AllChannelsOk s ↔ ChannelOk s.cfg s.ch0 ∧ ChannelOk s.cfg s.ch1 :=
  ⟨fun h => ⟨h .ch0, h .ch1⟩, fun h c => by cases c; exacts [h.1, h.2]⟩

theorem AllChannelsOk.setChan {s : State} (h : AllChannelsOk s) (c : Chan) {y : Channel}
    (hy : ChannelOk s.cfg y) : AllChannelsOk (s.setChan c y) := by
  intro d
  rw [State.setChan_cfg, State.chan_setChan]
  split
  · exact hy
  · exact h d

/-- Both channels changed by one operation. -/
theorem AllChannelsOk.both {s t : State} (hs : AllChannelsOk s) (hcfg : t.cfg = s.cfg)
    (h : ∀ c, ChannelOk s.cfg (s.chan c) → ChannelOk s.cfg (t.chan c)) : AllChannelsOk t := by
  intro c
  rw [hcfg]
  exact h c (hs c)

theorem ChannelOk.forgetSlot {cfg : Config} {ch : Channel} (h : ChannelOk cfg ch) (i : BitVec 16) :
    ChannelOk cfg (ch.forgetSlot i) := by
  unfold Channel.forgetSlot
  split <;> exact h

/-- R8: a slot of the pool is never the reference NONE. -/
theorem CfgFacts.slot_ne_tipNone {cfg : Config} (F : CfgFacts cfg) {n : Nat} (hn : n < cfg.numTipSettings) :
    BitVec.ofNat 8 n ≠ tipNone := by
  have hslots := F.slots
  intro h
  have := congrArg BitVec.toNat h
  rw [BitVec.toNat_ofNat, Nat.mod_eq_of_lt (by omega)] at this
  change n = 255 at this
  omega

theorem ChannelOk.ctlLoadTip {cfg : Config} {ch : Channel} (h : ChannelOk cfg ch) {tip : BitVec 8}
    (htip : tip ≠ tipNone) (selected : BitVec 16) (r : TipRecord) :
    ChannelOk cfg ({ ch with tip := tip, selectedTip := selected }.ctlLoad r) := by
  obtain ⟨duty, ⟨hunknown, hnoTool, hctl, hstop, hheat⟩, pins, ranges, output⟩ := h
  exact ⟨duty, ⟨hunknown, hnoTool, hctl, hstop, fun heating => ⟨htip, (hheat heating).2⟩⟩, pins, ranges, output⟩

/-- R52: what REG.WR lets into a channel's settings is in range. -/
theorem ChannelOk.write {cfg : Config} {ch : Channel} (h : ChannelOk cfg ch) {v : RegWord} {c : Chan} {r : ChReg}
    (legal : (Reg.chan c r).legal cfg v = true) : ChannelOk cfg (r.write v ch) := by
  obtain ⟨duty, state, pins, ⟨huser, hsetback, hpresets, hident⟩, output⟩ := h
  cases r with
  | preset i =>
    simp only [Reg.legal, decide_eq_true_eq] at legal
    refine ⟨duty, state, pins, ⟨huser, hsetback, fun j => ?_, hident⟩, output⟩
    simp only [ChReg.write, Triple.get_set]
    split
    · rw [toNat_setWidth_16 (by omega)]
      exact legal
    · exact hpresets j
  | setbackTemp =>
    simp only [Reg.legal, decide_eq_true_eq] at legal
    refine ⟨duty, state, pins, ⟨huser, ?_, hpresets, hident⟩, output⟩
    simp only [ChReg.write]
    rw [toNat_setWidth_16 (by omega)]
    exact legal
  | _ => exact ⟨duty, state, pins, ⟨huser, hsetback, hpresets, hident⟩, output⟩

theorem ChannelEffect.channelOk {cfg : Config} (F : CfgFacts cfg) {c : Chan} {x y : Channel} {i : Instr}
    (h : ChannelEffect cfg c x i y) (hx : ChannelOk cfg x) : ChannelOk cfg y := by
  cases h with
  | switchOff => exact ChannelOk.switchOff (ch := { x with idleMs := 0 }) hx
  | switchOn known tip => exact ChannelOk.setState_active (ch := { x with idleMs := 0 }) hx known tip
  | setTemp v range =>
    obtain ⟨duty, state, pins, ⟨-, hsetback, hpresets, hident⟩, output⟩ := hx
    refine ChannelOk.interact ⟨duty, state, pins, ⟨?_, hsetback, hpresets, hident⟩, output⟩
    rw [toNat_setWidth_16 (by omega)]
    exact range
  | nextPreset =>
    obtain ⟨duty, state, pins, ⟨-, hsetback, hpresets, hident⟩, output⟩ := hx
    exact ChannelOk.interact ⟨duty, state, pins, ⟨hpresets _, hsetback, hpresets, hident⟩, output⟩
  | changeTip slot r range => exact (hx.ctlLoadTip (F.slot_ne_tipNone range) _ r).interact
  | interact => exact hx.interact
  | fixedDuty d range known fixed =>
    have hfixed : (d.setWidth 7).toNat ≤ 100 := by rw [BitVec.toNat_setWidth]; omega
    obtain ⟨⟨acc, -, -⟩, ⟨hunknown, hnoTool, hctl, -, hheat⟩, pins, ranges, output⟩ := hx
    refine ⟨⟨acc, Channel.dccSet_duty_le F _ x, hfixed⟩, ⟨hunknown, hnoTool, hctl, fun stopped => ?_, hheat⟩,
      pins, ranges, output⟩
    have running : x.isRunning = true := x.isRunning_iff.2 (.inr (.inr fixed))
    exact absurd (running.symm.trans stopped) nofun
  | fixedPower d range known =>
    have hfixed : (d.setWidth 7).toNat ≤ 100 := by rw [BitVec.toNat_setWidth]; omega
    obtain ⟨⟨acc, duty, -⟩, rest⟩ := hx
    have chosen : ChannelOk cfg { x with fixedDuty := d.setWidth 7, idleMs := 0 } := ⟨⟨acc, duty, hfixed⟩, rest⟩
    exact chosen.setState_fixedPower F known
  | register a v r legal => exact hx.write legal

theorem HostEffect.channelsOk {i : Instr} {s u : State} (h : HostEffect s i u) (F : CfgFacts s.cfg)
    (hs : AllChannelsOk s) : AllChannelsOk u := by
  cases h with
  | channel effect => exact hs.setChan _ (effect.channelOk F (hs _))
  | disable => exact hs.both rfl fun c h => by cases c <;> exact h.switchOff
  | free slot => exact hs.both rfl fun c h => by cases c <;> exact h.forgetSlot slot
  | tipMismatch => exact hs.both rfl fun c h => by rw [State.raiseFatal_chan]; exact h.driveOff
  | _ => exact hs.both rfl fun c h => by cases c <;> exact h

theorem State.ctrlUpdate_channelsOk {s : State} (F : CfgFacts s.cfg) (hs : AllChannelsOk s) :
    AllChannelsOk s.ctrlUpdate :=
  hs.both rfl fun c h => by
    rw [State.ctrlUpdate_chan]
    exact h.update F s.tips

theorem State.seqBuild_channelsOk {s : State} (F : CfgFacts s.cfg) (hs : AllChannelsOk s) :
    AllChannelsOk s.seqBuild :=
  hs.both rfl fun c h => by
    rw [State.seqBuild_chan]
    exact h.buildPart F

/-- R221: EV.ZC leaves the channels but for their drives. -/
theorem State.evZc_chan (s : State) (c : Chan) :
    s.evZc.chan c = { s.chan c with drive := if s.fatal then (s.chan c).drive else 0 } := by
  unfold State.evZc State.zcArm
  cases c <;> repeat' split
  all_goals rfl

theorem State.evZc_channelsOk {s : State} (hs : AllChannelsOk s) : AllChannelsOk s.evZc :=
  hs.both (State.evZc_cfg s) fun c h => by
    rw [State.evZc_chan]
    split
    · exact h
    · exact h.driveOff

theorem State.evTmr_channelsOk {s : State} (F : CfgFacts s.cfg) (hs : AllChannelsOk s) :
    AllChannelsOk s.evTmr := by
  unfold State.evTmr
  split
  · exact hs
  split
  · exact hs
  · have disarmed : AllChannelsOk { s with timerArmed := false } := hs.both rfl fun c h => by cases c <;> exact h
    have built := State.seqBuild_channelsOk F disarmed
    dsimp only
    split
    · exact State.ctrlUpdate_channelsOk F built
    · exact built.both rfl fun c h => by cases c <;> exact h

theorem SampleTaken.channelsOk {c : Chan} {raw : BitVec 16} {s u : State} (h : SampleTaken c raw s u)
    (hs : AllChannelsOk s) : AllChannelsOk u := by
  cases h with
  | dropped => exact hs
  | identified stopped =>
    refine (hs.setChan c ((hs c).ident stopped s.tips raw.toNat)).both ?_ fun d h => ?_
    · rw [State.putChannel_cfg, State.setChan_cfg]
    · cases c <;> cases d <;> exact h
  | averaged slot => exact hs.setChan c ((hs c).takeSample slot raw)

theorem State.adcAdvance_channelsOk {s : State} (F : CfgFacts s.cfg) (hs : AllChannelsOk s) :
    AllChannelsOk s.adcAdvance := by
  unfold State.adcAdvance
  dsimp only
  split
  · exact hs.both rfl fun c h => by cases c <;> exact h
  · exact State.ctrlUpdate_channelsOk F (hs.both rfl fun c h => by cases c <;> exact h)

theorem State.evAdc_channelsOk {s : State} (F : CfgFacts s.cfg) (tag : MuxCode) (raw : BitVec 16)
    (hs : AllChannelsOk s) : AllChannelsOk (s.evAdc tag raw) := by
  have idle : AllChannelsOk { s with adcBusy := false } := hs.both rfl fun c h => by cases c <;> exact h
  have trap {u : State} (hu : AllChannelsOk u) (code : FatalCause) : AllChannelsOk (u.raiseFatal code) :=
    hu.both rfl fun c h => by rw [State.raiseFatal_chan]; exact h.driveOff
  rcases State.evAdc_cases tag raw s with ⟨-, h⟩ | h | ⟨-, -, -, h | ⟨u, taken, h⟩⟩ <;> rw [h]
  · exact hs
  · exact trap hs _
  · exact trap idle _
  · refine State.adcAdvance_channelsOk ?_ (taken.channelsOk idle)
    rw [taken.frame]
    exact F

theorem allChannelsOk_kept : KeptByOperations AllChannelsOk where
  begun _ _ hs := hs.both rfl fun c h => by cases c <;> exact h
  answered u t h hu := by
    unfold Answered at h
    rw [h]
    exact hu.both rfl fun c h => by cases c <;> exact h
  host _ _ _ F hs h := h.channelsOk F hs
  rst s F _ := (allChannelsOk_iff _).2 ⟨.reset F, .reset F⟩
  zc _ _ hs := State.evZc_channelsOk hs
  tmr _ F hs := State.evTmr_channelsOk F hs
  adc _ tag raw F hs := State.evAdc_channelsOk F tag raw hs
  oc s _ hs := by
    unfold State.evOc
    split
    · exact hs
    · exact hs.both rfl fun c h => by cases c <;> exact h.setOverload

/-! Tip references (R254) -/

/-- Both channels' tip references name allocated slots of their irons' types. -/
def TipRefs (s : State) : Prop := ∀ c, TipRefInv s.cfg s.tips (s.chan c)

/-- A reference stays good while its channel keeps it and the iron, and its slot keeps its name. -/
theorem TipRefInv.of_same {cfg : Config} {tips tips' : List TipRecord} {x y : Channel}
    (h : TipRefInv cfg tips x) (htip : y.tip = x.tip) (hiron : y.iron = x.iron)
    (hname : x.tip ≠ tipNone → (tipAt tips' x.tip.toNat).name = (tipAt tips x.tip.toNat).name) :
    TipRefInv cfg tips' y := by
  intro hy
  rw [htip] at hy ⊢
  obtain ⟨known, hslot, allocated, fits⟩ := h hy
  rw [hiron]
  unfold TipRecord.allocated TipRecord.iron at *
  rw [hname hy]
  exact ⟨known, hslot, allocated, fits⟩

/-- R254: a reference to an allocated slot of the iron's type. -/
theorem TipRefInv.slot {cfg : Config} (F : CfgFacts cfg) {tips : List TipRecord} {ch : Channel} {i : Nat}
    (hi : i < cfg.numTipSettings) (htip : ch.tip = BitVec.ofNat 8 i) (known : ch.iron ≠ .unknown)
    (allocated : (tipAt tips i).allocated = true) (fits : (tipAt tips i).iron cfg = ch.iron) :
    TipRefInv cfg tips ch := by
  intro _
  have hslots := F.slots
  rw [htip, BitVec.toNat_ofNat, Nat.mod_eq_of_lt (by omega)]
  exact ⟨known, hi, allocated, fits⟩

theorem TipRefs.of_same {s t : State} (hs : TipRefs s) (hcfg : t.cfg = s.cfg) (htips : t.tips = s.tips)
    (htip : ∀ c, (t.chan c).tip = (s.chan c).tip) (hiron : ∀ c, (t.chan c).iron = (s.chan c).iron) :
    TipRefs t := by
  intro c
  rw [hcfg, htips]
  exact (hs c).of_same (htip c) (hiron c) fun _ => rfl

/-- Replacing a record by one of the same name renames no slot. -/
theorem tipAt_set_name (tips : List TipRecord) {i : Nat} {r : TipRecord} (hr : r.name = (tipAt tips i).name)
    (j : Nat) : (tipAt (tips.set i r) j).name = (tipAt tips j).name := by
  by_cases hij : i = j
  · subst hij
    by_cases hi : i < tips.length
    · rw [tipAt_set_same r hi, hr]
    · rw [List.set_eq_of_length_le (Nat.le_of_not_lt hi)]
  · rw [tipAt_set_other tips r hij]

/-- R254, R271: a slot that is not in use is not a channel's tip. -/
theorem State.ne_of_slotUnused {s : State} {i : Nat} (unused : s.slotInUse i = false) (c : Chan)
    (htip : (s.chan c).tip ≠ tipNone) : i ≠ (s.chan c).tip.toNat := by
  rintro rfl
  cases c <;> simp_all [State.slotInUse, Channel.usesSlot]

/-- No effect of a host command renames a slot that is in use. -/
theorem HostEffect.keepsName {i : Instr} {s u : State} (h : HostEffect s i u) (hs : TipRefs s) (c : Chan)
    (htip : (s.chan c).tip ≠ tipNone) :
    (tipAt u.tips (s.chan c).tip.toNat).name = (tipAt s.tips (s.chan c).tip.toNat).name := by
  obtain ⟨-, -, allocated, -⟩ := hs c htip
  cases h with
  | channel => rw [State.setChan_tips]
  | calSave | calSet => exact tipAt_set_name s.tips (by rfl) _
  | alloc n => exact congrArg _ (allocTip_keeps s.cfg n s.tips _ allocated)
  | free slot range _ unused => exact congrArg _ (tipAt_set_other s.tips _ (State.ne_of_slotUnused unused c htip))
  | tipRegister a v n r legal unused =>
    cases r with
    | name => exact congrArg _ (tipAt_set_other s.tips _ (State.ne_of_slotUnused unused c htip))
    | flags | calT | calM | gain => exact tipAt_set_name s.tips (by rfl) _
  | _ => rfl

/-- Reset, EV.ADC and CH.CHANGETIP apart, no operation from outside reaches a channel's tip or iron. -/
theorem exec_keepsTip {i : Instr} {s t : State} (hi : i.issuable = true) (rst : i ≠ .evRst) (adc : ¬ IsConversion i)
    (change : ¬ IsTipChange i) (h : exec i s = .next t) (c : Chan) :
    (t.chan c).tip = (s.chan c).tip ∧ (t.chan c).iron = (s.chan c).iron := by
  have written := (exec_written hi rst h).2 c
  refine ⟨by_contra fun htip => ?_, by_contra fun hiron => adc (written.iron (.inl hiron))⟩
  rcases written.tip (.inl htip) with conversion | ⟨n, rfl⟩
  · exact adc conversion
  · exact change ⟨c, n, rfl⟩

theorem exec_host_tipRefs {i : Instr} {s t : State} (hi : i.isHost = true) (change : ¬ IsTipChange i)
    (hs : TipRefs s) (h : exec i s = .next t) : TipRefs t := by
  obtain ⟨u, heffect, hanswer⟩ := exec_host_carriedOut hi h
  have htips : t.tips = u.tips := by
    unfold Answered at hanswer
    rw [hanswer]
  intro c
  have kept := exec_keepsTip (by simp [Instr.issuable, hi]) (by rintro rfl; cases hi)
    (by rintro ⟨_, _, rfl⟩; cases hi) change h c
  rw [exec_cfg i h, htips]
  exact (hs c).of_same kept.1 kept.2 (heffect.keepsName hs c)

/-- R203: CH.CHANGETIP checks the slot it takes. -/
theorem execChChangetip_tipRefs {c : Chan} {slot : BitVec 32} {s t : State} (F : CfgFacts s.cfg) (hs : TipRefs s)
    (h : execChChangetip c slot s = .next t) : TipRefs t := by
  have kept (e : RejectCode) : TipRefs (s.reject e) :=
    hs.of_same rfl rfl (fun d => by rw [State.reject_chan]) fun d => by rw [State.reject_chan]
  cases h
  refine State.hostCommand_induct (fun _ => kept _) fun _ => ?_
  dsimp only
  split
  · exact kept _
  next hslot =>
  split
  · exact kept _
  next known =>
  split
  · exact hs.of_same rfl rfl (fun d => by cases d <;> rfl) fun d => by cases d <;> rfl
  next fits =>
    simp only [not_or, Nat.not_le, Bool.not_eq_false] at hslot
    intro d
    rw [State.accept_chan, State.accept_cfg, State.accept_tips, State.setChan_cfg, State.setChan_tips,
      State.chan_setChan]
    split
    · rw [Channel.interact_frame]
      exact .slot F hslot.1 rfl known hslot.2 (not_ne_iff.1 fits)
    · exact hs d

/-! Tip references through an identification (R191, R194, R195) -/

section

variable {cfg : Config} {tips : List TipRecord} {ch : Channel}

theorem Channel.takeIron_tip (t : Iron) : (ch.takeIron cfg tips t).1.iron = t
    ∧ (ch.takeIron cfg tips t).1.tip = (Channel.tipSel cfg tips ({ ch with iron := t }.measReset cfg)).1.tip := by
  have frame := Channel.tipSel_frame cfg tips (Channel.measReset cfg { ch with iron := t })
  unfold Channel.takeIron
  generalize Channel.tipSel cfg tips (Channel.measReset cfg { ch with iron := t }) = r at frame
  have hiron : r.1.iron = t := congrArg Channel.iron frame
  dsimp only
  split <;> split <;> simp [Channel.ctlLoad, hiron]

theorem TipRefInv.takeIron (F : CfgFacts cfg) (hl : tips.length = cfg.numTipSettings) {t : Iron}
    (known : t ≠ .unknown) : TipRefInv cfg (ch.takeIron cfg tips t).2 (ch.takeIron cfg tips t).1 := by
  obtain ⟨hiron, htip⟩ := Channel.takeIron_tip (cfg := cfg) (tips := tips) (ch := ch) t
  rcases Channel.tipSel_cases (ch := { ch with iron := t }.measReset cfg) F hl known with
    ⟨i, hi, allocated, fits, h⟩ | h <;> rw [h] at htip
  · exact .slot F hi htip (hiron.symm ▸ known) allocated (fits.trans hiron.symm)
  · exact fun hne => absurd htip hne

theorem TipRefInv.setIron (F : CfgFacts cfg) (hl : tips.length = cfg.numTipSettings) (h : TipRefInv cfg tips ch)
    (t : Iron) : TipRefInv cfg (ch.setIron cfg tips t).2 (ch.setIron cfg tips t).1 := by
  unfold Channel.setIron
  split
  · dsimp only
    split
    · exact h.of_same (Channel.setState_tip ..) (Channel.setState_iron ..) fun _ => rfl
    · exact h
  · dsimp only
    split
    · split
      · exact h
      · exact fun hne => absurd rfl hne
    · next known => exact .takeIron F hl known

theorem TipRefInv.ident (F : CfgFacts cfg) (hl : tips.length = cfg.numTipSettings) (h : TipRefInv cfg tips ch)
    (raw : Nat) : TipRefInv cfg (ch.ident cfg tips raw).2 (ch.ident cfg tips raw).1 :=
  TipRefInv.setIron (ch := { ch with idOhms := BitVec.ofNat 32 (idResistance cfg raw) }) F hl h _

/-- R194, R253: an identification leaves every allocated slot as it is. -/
theorem Channel.ident_keeps (raw : Nat) {i : Nat} (h : (tipAt tips i).allocated = true) :
    tipAt (ch.ident cfg tips raw).2 i = tipAt tips i := by
  unfold Channel.ident
  dsimp only
  rcases Channel.setIron_pool cfg tips { ch with idOhms := BitVec.ofNat 32 (idResistance cfg raw) }
    (ironOf (idResistance cfg raw)) with hpool | ⟨-, hpool⟩ <;> rw [hpool]
  exact allocTip_keeps cfg _ tips i h

end

theorem SampleTaken.tipRefs {c : Chan} {raw : BitVec 16} {s u : State} (h : SampleTaken c raw s u)
    (F : CfgFacts s.cfg) (hl : s.tips.length = s.cfg.numTipSettings) (hs : TipRefs s) : TipRefs u := by
  cases h with
  | dropped => exact hs
  | identified =>
    intro d
    rw [State.putChannel_cfg, State.putChannel_tips]
    by_cases hd : d = c
    · subst hd
      rw [State.putChannel_chan_same]
      exact (hs d).ident F hl _
    · rw [State.putChannel_chan_other _ _ hd]
      refine (hs d).of_same rfl rfl fun htip => ?_
      obtain ⟨-, -, allocated, -⟩ := hs d htip
      exact congrArg _ (Channel.ident_keeps _ allocated)
  | averaged slot =>
    refine hs.of_same (State.updChan_cfg ..) (State.updChan_tips ..) (fun d => ?_) fun d => ?_ <;>
      rw [State.updChan_eq, State.chan_setChan] <;> split <;> rename_i hd
    · rw [hd]; cases slot <;> rfl
    · rfl
    · rw [hd, Channel.takeSample_iron]
    · rfl

/-- R226: after a sample a channel changes by at most a turn of the control update. -/
theorem State.adcAdvance_chan (s : State) (c : Chan) :
    s.adcAdvance.chan c = s.chan c ∨ s.adcAdvance.chan c = (s.chan c).update s.cfg s.tips := by
  by_cases more : (s.qIdx + 1).toNat < s.qLen.toNat
  · rw [State.adcAdvance_more more]
    exact .inl (by cases c <;> rfl)
  · rw [State.adcAdvance_drained more, State.ctrlUpdate_chan]
    exact .inr (by cases c <;> rfl)

theorem State.adcAdvance_turn (s : State) (c : Chan) : TurnWrites (s.chan c) (s.adcAdvance.chan c) := by
  rcases s.adcAdvance_chan c with h | h <;> rw [h]
  · rfl
  · exact .update _ _ _

theorem TurnWrites.tip {x y : Channel} (h : TurnWrites x y) : y.tip = x.tip := by
  unfold TurnWrites at h
  rw [h]

theorem TurnWrites.iron {x y : Channel} (h : TurnWrites x y) : y.iron = x.iron := by
  unfold TurnWrites at h
  rw [h]

theorem State.adcAdvance_tipRefs {s : State} (hs : TipRefs s) : TipRefs s.adcAdvance := by
  refine hs.of_same (State.adcAdvance_cfg s) ?_ (fun c => (s.adcAdvance_turn c).tip)
    fun c => (s.adcAdvance_turn c).iron
  rw [State.adcAdvance_frame]

theorem State.evAdc_tipRefs {s : State} (F : CfgFacts s.cfg) (hl : s.tips.length = s.cfg.numTipSettings)
    (tag : MuxCode) (raw : BitVec 16) (hs : TipRefs s) : TipRefs (s.evAdc tag raw) := by
  have idle : TipRefs { s with adcBusy := false } :=
    hs.of_same rfl rfl (fun c => by cases c <;> rfl) fun c => by cases c <;> rfl
  have trap {u : State} (hu : TipRefs u) (code : FatalCause) : TipRefs (u.raiseFatal code) :=
    hu.of_same rfl rfl (fun c => by cases c <;> rfl) fun c => by cases c <;> rfl
  rcases State.evAdc_cases tag raw s with ⟨-, h⟩ | h | ⟨-, -, -, h | ⟨u, taken, h⟩⟩ <;> rw [h]
  · exact hs
  · exact trap hs _
  · exact trap idle _
  · exact State.adcAdvance_tipRefs (taken.tipRefs F hl idle)

/-- R254: no operation leaves a tip reference behind. -/
theorem exec_tipRefs {i : Instr} {s t : State} (hi : i.issuable = true) (F : CfgFacts s.cfg)
    (hl : s.tips.length = s.cfg.numTipSettings) (hs : TipRefs s) (h : exec i s = .next t) : TipRefs t := by
  by_cases rst : i = .evRst
  · subst rst
    cases h
    intro c
    rw [resetWith_chan]
    exact reset_tipRefInv _ _
  by_cases adc : IsConversion i
  · obtain ⟨tag, raw, rfl⟩ := adc
    rw [execEvAdc_eq h]
    exact State.evAdc_tipRefs F hl tag raw hs
  by_cases change : IsTipChange i
  · obtain ⟨c, slot, rfl⟩ := change
    exact execChChangetip_tipRefs F hs h
  by_cases hhost : i.isHost = true
  · exact exec_host_tipRefs hhost change hs h
  · have kept := exec_keepsTip hi rst adc change h
    refine hs.of_same (exec_cfg i h) (by_contra fun htips => ?_) (fun c => (kept c).1) fun c => (kept c).2
    rcases (exec_written hi rst h).1.tips htips with
      conversion | ⟨a, v, rfl⟩ | ⟨c, j, rfl⟩ | ⟨c, j, x, m, rfl⟩ | ⟨n, rfl⟩ | ⟨n, rfl⟩
    · exact adc conversion
    all_goals exact hhost rfl

theorem step_tipRefs {s t : State} (hl : s.tips.length = s.cfg.numTipSettings) (hs : TipRefs s)
    (h : step s = .next t) : TipRefs t := by
  obtain ⟨legal, rfl | ⟨st, -, ⟨i, -, hi, hexec⟩ | rfl⟩⟩ := step_cases h
  · exact hs.of_same rfl rfl (fun c => by cases c <;> rfl) fun c => by cases c <;> rfl
  · refine exec_tipRefs (s := s.beginStep st) hi (configLegal_facts legal) hl ?_ hexec
    exact hs.of_same rfl rfl (fun c => by cases c <;> rfl) fun c => by cases c <;> rfl
  · exact hs.of_same rfl rfl (fun c => by cases c <;> rfl) fun c => by cases c <;> rfl

theorem channelsInv_iff (s : State) : ChannelsInv s ↔ AllChannelsOk s ∧ TipRefs s := by
  unfold ChannelsInv AllChannelsOk TipRefs
  simp only [channelInv_iff, forall_and]

/-- Settles O13: the invariants of each channel by itself are kept by every effect and event; its tip reference is
checked when it is taken, and a slot that is in use keeps its name. -/
theorem channelInvariantKept : Obligations.ChannelInvariantKept := by
  intro s t pool hs h
  obtain ⟨channels, refs⟩ := (channelsInv_iff s).1 hs
  exact (channelsInv_iff t).2 ⟨allChannelsOk_kept.step channels h, step_tipRefs (beq_iff_eq.1 pool) refs h⟩

end Sys2Proof.Machine

/-! # No drive without a running channel (R180, R283) -/

namespace Sys2Proof.Machine

/-! The halted machine (R283) -/

/-- R283: a halted machine answers a command and changes nothing else. -/
theorem Answered.halted {s : State} (halted : s.fatal = true) (body : State → State) :
    Answered s (s.hostCommand body) := by
  rw [State.hostCommand_halted body halted]
  rfl

theorem exec_host_halted {i : Instr} {s t : State} (hi : i.isHost = true) (halted : s.fatal = true)
    (h : exec i s = .next t) : Answered s t := by
  cases i with
  | regRd a =>
    change execRegRd a s = .next t at h
    unfold execRegRd at h
    repeat' split at h
    all_goals cases h; rfl
  | ctlEnable | ctlDisable | ctlToggle | ctlChiptemp | chSetstate | chSettemp | chNextpreset | chChangetip
  | chInteract | chFixedpwr | chGetstate | chGetcur | chGettgt | chGetpwr | chIsmod | calSave | calSet | calGett
  | calGetm | calInst | tipAlloc | tipFree | tipFind | regWr => cases h; exact .halted halted _
  | _ => cases hi

/-- R283: EV.RST apart, no operation from outside does more to a halted machine than answer. -/
theorem exec_halted {i : Instr} {s t : State} (hi : i.issuable = true) (rst : i ≠ .evRst) (halted : s.fatal = true)
    (h : exec i s = .next t) : Answered s t := by
  rcases isHost_or_event hi with hhost | rfl | rfl | rfl | ⟨tag, raw, rfl⟩ | rfl
  · exact exec_host_halted hhost halted h
  · exact absurd rfl rst
  · cases h; rw [State.evZc, if_pos halted]; rfl
  · cases h; rw [State.evTmr, if_pos halted]; rfl
  · rw [execEvAdc_eq h, State.evAdc, if_pos halted]; rfl
  · cases h; rw [State.evOc, if_pos halted]; rfl

/-- R283: while the machine is halted no leg is driven. -/
def HaltedUndriven (s : State) : Prop := s.fatal = true → ∀ c, (s.chan c).drive = 0

theorem HaltInv.undriven {s : State} (h : HaltInv s) : HaltedUndriven s := by
  obtain ⟨-, hdrives, -⟩ := h
  intro halted c
  cases c
  · exact (hdrives halted).1
  · exact (hdrives halted).2

theorem HaltedUndriven.raiseFatal (s : State) (code : FatalCause) : HaltedUndriven (s.raiseFatal code) :=
  fun _ c => by rw [State.raiseFatal_chan]

theorem HaltedUndriven.of_running {s : State} (h : s.fatal = false) : HaltedUndriven s := fun halted =>
  absurd (halted.symm.trans h) nofun

theorem HaltedUndriven.answered {u t : State} (h : Answered u t) (hu : HaltedUndriven u) : HaltedUndriven t := by
  intro halted c
  rw [h.chan]
  refine hu ?_ c
  unfold Answered at h
  rwa [h] at halted

theorem HostEffect.undriven {i : Instr} {s u : State} (h : HostEffect s i u) (running : s.fatal = false) :
    HaltedUndriven u := by
  cases h with
  | tipMismatch => exact .raiseFatal s .tipMismatch
  | channel => exact .of_running ((State.setChan_fatal ..).trans running)
  | _ => exact .of_running running

theorem State.evAdc_undriven {s : State} (tag : MuxCode) (raw : BitVec 16) (running : s.fatal = false) :
    HaltedUndriven (s.evAdc tag raw) := by
  rcases State.evAdc_cases tag raw s with ⟨halted, -⟩ | h | ⟨-, -, -, h | ⟨u, taken, h⟩⟩
  · exact absurd (halted.symm.trans running) nofun
  · exact h ▸ .raiseFatal s .adcDesync
  · exact h ▸ .raiseFatal _ .measMux
  · rw [h, State.adcAdvance_frame, taken.frame]
    exact .of_running running

theorem exec_undriven {i : Instr} {s t : State} (hi : i.issuable = true) (hs : HaltedUndriven s)
    (h : exec i s = .next t) : HaltedUndriven t := by
  by_cases rst : i = .evRst
  · subst rst
    cases h
    exact .of_running rfl
  cases running : s.fatal with
  | true => exact hs.answered (exec_halted hi rst running h)
  | false =>
    by_cases hhost : i.isHost = true
    · obtain ⟨u, heffect, hanswer⟩ := exec_host_carriedOut hhost h
      exact (heffect.undriven running).answered hanswer
    by_cases adc : IsConversion i
    · obtain ⟨tag, raw, rfl⟩ := adc
      rw [execEvAdc_eq h]
      exact State.evAdc_undriven tag raw running
    · refine .of_running ((exec_fatal hi rst adc ?_ h).trans running)
      rintro ⟨c, n, rfl⟩
      exact hhost rfl

theorem step_undriven {s t : State} (hs : HaltedUndriven s) (h : step s = .next t) : HaltedUndriven t := by
  have begun (st : Stimulus) : HaltedUndriven (s.beginStep st) := fun halted c => by
    rw [State.beginStep_chan]
    exact hs halted c
  obtain ⟨-, rfl | ⟨st, -, ⟨i, -, hi, hexec⟩ | rfl⟩⟩ := step_cases h
  · intro halted c
    rw [State.dropPulses_chan]
    exact hs halted c
  · exact exec_undriven hi (begun st) hexec
  · exact (begun st).answered rfl

/-- Settles O18: a stopped channel is not driven (O13), and neither is a halted machine's. -/
theorem noStepDrivesAnIdleHeater : Obligations.NoStepDrivesAnIdleHeater := by
  intro s t pool hs hhalt h c driven
  obtain ⟨channels, -⟩ := (channelsInv_iff t).1 (channelInvariantKept s t pool hs h)
  refine ⟨?_, Bool.eq_false_iff.2 fun halted => driven (step_undriven hhalt.undriven h halted c)⟩
  by_contra stopped
  exact driven ((channels c).quiet (Bool.eq_false_iff.2 stopped)).drive

end Sys2Proof.Machine

/-! # The operations of the channel state machine, as their rules print them (R185 to R198) -/

namespace Sys2Proof.Machine

/-! SetState (R185) -/

theorem exec_chSetst (c : Chan) (tgt : SetTarget) (s : State) :
    exec (.chSetst c tgt) s = .next (s.updChan c (Channel.setState s.cfg tgt)) := rfl

/-- A function that fixes the channel it is given changes nothing. -/
theorem State.updChan_fixed (s : State) {c : Chan} {f : Channel → Channel} (h : f (s.chan c) = s.chan c) :
    s.updChan c f = s := by
  rw [State.updChan_eq, h, State.setChan_chan]

/-- R185: the exit action stops the controller and zeroes duty, decision and drive, when the rule says so. -/
theorem Channel.exitRunning_eq (tgt : SetTarget) (ch : Channel) :
    ch.exitRunning tgt =
      if ch.state.isRunning = true ∧ ¬ (ch.state.isHeating = true ∧ (targetState tgt).isHeating = true) then
        { ch.ctlEnable false with duty := 0, on := false, drive := 0 }
      else ch := by
  unfold Channel.exitRunning
  exact if_congr (by simp [or_iff_not_imp_left]) rfl rfl

/-- A duty of seven bits is the same number as a 32-bit operand (R121, R185). -/
theorem toInt_setWidth_duty (d : BitVec 7) : (d.setWidth 32).toInt = d.toNat := by
  have hd := d.isLt
  rw [BitVec.toInt_eq_toNat_of_lt (by rw [BitVec.toNat_setWidth]; omega), BitVec.toNat_setWidth]
  omega

/-- Settles O35: the exit action, then the target's entry action, composed on the one channel. -/
theorem stateChangePrimitive : Obligations.StateChangePrimitive := by
  intro c tgt s old new leaves s1 s2 on
  have hs1 : s1 = s.updChan c (Channel.exitRunning tgt) := by
    dsimp only [s1]
    split_ifs with hleaves
    · rw [after_ctlEn, State.updChan_updChan]
      exact State.updChan_congr s c (by rw [Channel.exitRunning_eq, if_pos hleaves])
    · exact (State.updChan_fixed s (by rw [Channel.exitRunning_eq, if_neg hleaves])).symm
  have hs2 : s2 = s.updChan c fun ch => { ch.exitRunning tgt with state := new } := by
    dsimp only [s2]
    rw [hs1, State.updChan_updChan]
  rw [exec_chSetst]
  by_cases same : new = old
  · rw [if_pos same, State.updChan_fixed s (Channel.setState_same same)]
  · rw [if_neg same]
    have hset := Channel.setState_ne (cfg := s.cfg) same
    rw [hs2]
    cases tgt with
    | active =>
      dsimp only
      congr 1
      split_ifs with heating
      · simp only [on, State.updChan_updChan]
        refine State.updChan_congr s c (hset.trans ?_)
        rw [Channel.enterState, if_pos heating]
      · simp only [on, after_ctlEn, State.updChan_updChan]
        refine State.updChan_congr s c (hset.trans ?_)
        rw [Channel.enterState, if_neg heating]
    | setback => exact congrArg _ (State.updChan_congr s c hset)
    | fixedPower =>
      simp only [on, after_dccSet, State.updChan_updChan, State.updChan_cfg]
      refine congrArg _ (State.updChan_congr s c (hset.trans ?_))
      rw [toInt_setWidth_duty, Channel.exitRunning_frame]
      rfl
    | off | noTool | noTip =>
      simp only [State.updChan_updChan]
      exact congrArg _ (State.updChan_congr s c hset)

/-! Samples and identification (R189, R191 to R195) -/

/-- Settles O36: both operations by their definitions. -/
theorem sampleDispatchAndIdentification : Obligations.SampleDispatchAndIdentification := by
  refine ⟨fun c m raw s => ?_, fun c raw s => ?_⟩
  · change Host.Outcome.next (s.chProc c m raw).state = _
    unfold State.chProc
    rw [after_chIdent, after_measProc]
    by_cases ident : m = mxId
    · rw [if_pos ident, if_pos (show m = 0x02#8 from ident)]
      split <;> rfl
    · rw [if_neg ident, if_neg (show ¬ m = 0x02#8 from ident)]
  · dsimp only
    rw [after_chSetiron, State.updChan_putChannel, State.chan_updChan, State.updChan_cfg, State.updChan_tips]
    rfl

/-- R194: part 1 of an iron change, line by line. -/
theorem dropIron_turn (c : Chan) (s : State) :
    ((if (s.chan c).state = .overload then s.updChan c fun ch => { ch with voltSel := 0, led := false }
      else after (.chSetst c .noTool) s).updChan c fun ch => freshBlock s.cfg { ch with iron := .unknown, tip := 0xFF })
      = s.setChan c ((s.chan c).dropIron s.cfg) := by
  unfold Channel.dropIron
  split <;> cases c <;> rfl

/-- R194: the gains of the tip selected, if one was. -/
theorem loadTip_turn (c : Chan) (s : State) (r : Channel × List TipRecord) :
    let u := s.putChannel c r
    (if (u.chan c).tip = 0xFF then u else after (.ctlLoad c (u.chan c).tip) u)
      = s.putChannel c (if r.1.tip = tipNone then r.1 else r.1.ctlLoad (tipAt r.2 r.1.tip.toNat), r.2) := by
  dsimp only
  rw [State.putChannel_chan_same]
  by_cases untipped : r.1.tip = tipNone
  · rw [if_pos untipped, if_pos (show r.1.tip = 0xFF from untipped)]
  · rw [if_neg untipped, if_neg (show ¬ r.1.tip = 0xFF from untipped), after_ctlLoad, State.putChannel_updChan,
      State.putChannel_tip]

/-- R194: part 2 of an iron change, line by line. -/
theorem takeIron_turn (c : Chan) (t : Iron) (s : State) (d : Channel) :
    let s2 := after (.chTipsel c) ((s.setChan c d).updChan c fun ch => freshBlock s.cfg { ch with iron := t })
    let s3 := if (s2.chan c).tip = 0xFF then s2 else after (.ctlLoad c (s2.chan c).tip) s2
    (if (s3.chan c).state = .noTool then after (.chSetst c .off) s3 else s3)
      = s.putChannel c (d.takeIron s.cfg s.tips t) := by
  intro s2 s3
  have hs2 : s2 = s.putChannel c (Channel.tipSel s.cfg s.tips ({ d with iron := t }.measReset s.cfg)) := by
    cases c <;> rfl
  unfold Channel.takeIron
  generalize Channel.tipSel s.cfg s.tips ({ d with iron := t }.measReset s.cfg) = r at hs2
  have hs3 : s3 = s.putChannel c
      (if r.1.tip = tipNone then r.1 else r.1.ctlLoad (tipAt r.2 r.1.tip.toNat), r.2) := by
    dsimp only [s3]
    rw [hs2]
    exact loadTip_turn c s r
  rw [hs3, State.putChannel_chan_same]
  dsimp only
  generalize (if r.1.tip = tipNone then r.1 else r.1.ctlLoad (tipAt r.2 r.1.tip.toNat)) = y
  split
  · rw [after_chSetst, State.putChannel_updChan, State.putChannel_cfg]
  · rfl

theorem exec_chSetiron (c : Chan) (t : Iron) (s : State) :
    exec (.chSetiron c t) s = .next (s.putChannel c ((s.chan c).setIron s.cfg s.tips t)) := rfl

theorem State.putChannel_same (s : State) (c : Chan) (x : Channel) : s.putChannel c (x, s.tips) = s.setChan c x := by
  cases c <;> rfl

/-- Settles O38: the two parts of R194, and what an unchanged type does. -/
theorem ironChange : Obligations.IronChange := by
  intro c t s old s1 s2 s3
  have hs1 : s1 = s.setChan c (if old = .unknown then s.chan c else (s.chan c).dropIron s.cfg) := by
    dsimp only [s1]
    split
    · rw [State.setChan_chan]
    · exact dropIron_turn c s
  rw [exec_chSetiron]
  unfold Channel.setIron
  congr 1
  by_cases same : t = old
  · rw [if_pos same, if_pos same, State.putChannel_same]
    split
    · rw [after_chSetst, State.updChan_eq]
    · rw [State.setChan_chan]
  rw [if_neg same, if_neg same]
  dsimp only
  by_cases drop : t = .unknown
  · rw [if_pos drop, if_pos drop, hs1, State.putChannel_same]
  · rw [if_neg drop, if_neg drop, ← takeIron_turn, ← hs1]

section TipSelection

variable {cfg : Config} {tips : List TipRecord} {ch : Channel} {n : BitVec 16} {i : Nat}

/-- R253: the slot that bears the name. -/
theorem allocTip_named (h : lowestSlot tips (fun r => r.name == n) = some i) :
    allocTip cfg n tips = (some i, tips) := by
  rw [allocTip, h]

/-- R253: the lowest free slot, given the default record. -/
theorem allocTip_fresh (h : lowestSlot tips (fun r => r.name == n) = none)
    (hfree : lowestSlot tips (fun r => !r.allocated) = some i) :
    allocTip cfg n tips = (some i, tips.set i (defaultRecord cfg n)) := by
  rw [allocTip, h]
  dsimp only
  rw [hfree]

/-- R253: a full pool without the name. -/
theorem allocTip_full (h : lowestSlot tips (fun r => r.name == n) = none)
    (hfree : lowestSlot tips (fun r => !r.allocated) = none) : allocTip cfg n tips = (none, tips) := by
  rw [allocTip, h]
  dsimp only
  rw [hfree]

/-- The channel with slot `i` as its tip and its last tip (R195). -/
def Channel.takeSlot (i : Nat) (ch : Channel) : Channel :=
  { ch with tip := BitVec.ofNat 8 i, selectedTip := BitVec.ofNat 16 i }

theorem Channel.tipSel_reuse (h : reusableSlot cfg tips ch.iron ch.selectedTip = some i) :
    ch.tipSel cfg tips = (ch.takeSlot i, tips) := by
  rw [Channel.tipSel, h]
  rfl

theorem Channel.tipSel_alloc {tips' : List TipRecord}
    (h : reusableSlot cfg tips ch.iron ch.selectedTip = none)
    (halloc : allocTip cfg (defaultTip cfg ch.iron) tips = (some i, tips')) :
    ch.tipSel cfg tips = (ch.takeSlot i, tips') := by
  rw [Channel.tipSel, h]
  dsimp only
  rw [halloc]
  rfl

theorem Channel.tipSel_none {tips' : List TipRecord}
    (h : reusableSlot cfg tips ch.iron ch.selectedTip = none)
    (halloc : allocTip cfg (defaultTip cfg ch.iron) tips = (none, tips')) :
    ch.tipSel cfg tips = ({ ch with tip := tipNone }, tips') := by
  rw [Channel.tipSel, h]
  dsimp only
  rw [halloc]

end TipSelection

/-- Settles O39: the slot that can be reused, else the default tip's, else the lowest free one, else none. -/
theorem tipSelection : Obligations.TipSelection := by
  intro c s ch fits st n take
  have hreuse : reusableSlot s.cfg s.tips ch.iron ch.selectedTip
      = if st < s.cfg.numTipSettings ∧ fits (s.tip st) = true then some st else s.tips.findIdx? fits := by
    unfold reusableSlot lowestSlot
    exact if_congr (by rw [Bool.and_eq_true, decide_eq_true_eq]; rfl) rfl rfl
  have free : (fun r : TipRecord => !r.allocated) = fun r => r.name == 0xFFFF :=
    funext fun r => Bool.not_not (r.name == freeEntry)
  have taken {i : Nat} {tips : List TipRecord} (h : ch.tipSel s.cfg s.tips = (ch.takeSlot i, tips)) :
      exec (.chTipsel c) s = .next (take i tips) := by
    change Host.Outcome.next (s.putChannel c (ch.tipSel s.cfg s.tips)) = _
    rw [h]
    cases c <;> rfl
  by_cases last : st < s.cfg.numTipSettings ∧ fits (s.tip st) = true
  · rw [if_pos last] at hreuse ⊢
    exact taken (Channel.tipSel_reuse hreuse)
  rw [if_neg last] at hreuse ⊢
  cases hfit : s.tips.findIdx? fits with
  | some i => exact taken (Channel.tipSel_reuse (hreuse.trans hfit))
  | none =>
    have none_fits := hreuse.trans hfit
    dsimp only
    cases hname : s.tips.findIdx? fun r => r.name == n with
    | some i => exact taken (Channel.tipSel_alloc none_fits (allocTip_named hname))
    | none =>
      dsimp only
      cases hfree : s.tips.findIdx? fun r => r.name == 0xFFFF with
      | some i => exact taken (Channel.tipSel_alloc none_fits (allocTip_fresh hname (free ▸ hfree)))
      | none =>
        change Host.Outcome.next (s.putChannel c (ch.tipSel s.cfg s.tips)) = _
        rw [Channel.tipSel_none none_fits (allocTip_full hname (free ▸ hfree)), State.putChannel_same]
        rfl

/-! The idle timer and the overload (R197, R198) -/

/-- Settles O40: the idle timer is one function of the channel. -/
theorem idleTimer : Obligations.IdleTimer := by
  intro c ms s total s1
  change Host.Outcome.next (s.updChan c (Channel.idle s.cfg ms.toNat)) = _
  rw [after_chSetst, after_chSetst]
  dsimp only [s1]
  rw [State.updChan_updChan, State.updChan_updChan, State.updChan_cfg]
  congr 1
  split_ifs with off setback
  · exact State.updChan_congr s c (if_pos off)
  · exact State.updChan_congr s c ((if_neg off).trans (if_pos setback))
  · exact State.updChan_congr s c ((if_neg off).trans (if_neg setback))

/-- Settles O41: one channel, and both at an overcurrent. -/
theorem overloadShutdown : Obligations.OverloadShutdown := by
  refine ⟨fun _ _ => rfl, fun s => ?_⟩
  change Host.Outcome.next s.evOc = _
  unfold State.evOc
  split <;> rfl

end Sys2Proof.Machine

/-! # The host commands on a channel, as their rules print them (R200 to R210, R169) -/

namespace Sys2Proof.Machine

/-- R283: a host command's own rule runs while the machine is not halted. -/
theorem State.hostCommand_eq (s : State) (body : State → State) :
    s.hostCommand body = if s.fatal then s.reject .halted else body s := rfl

/-! Switching on and off (R200, R205) -/

/-- R200, R236: where a channel goes that is switched off. -/
theorem Channel.offTarget_eq (ch : Channel) : ch.offTarget = if ch.iron = .unknown then .noTool else .off := by
  unfold Channel.offTarget
  cases ch.iron <;> rfl

/-- R205: the operand of an accepted CH.FIXEDPWR is not negative. -/
theorem toInt_of_le_100 {d : BitVec 32} (h : d.toNat ≤ 100) : d.toInt = d.toNat :=
  BitVec.toInt_eq_toNat_of_lt (by omega)

/-- Settles O50: the guards in their order; the change is SetState, or the duty alone. -/
theorem switchOnOffAndFixedPower : Obligations.SwitchOnOffAndFixedPower := by
  refine ⟨fun c idx s => ?_, fun c d s => ?_⟩
  · intro ch s1 offTarget
    have htarget : offTarget = ch.offTarget := ch.offTarget_eq.symm
    have moved (tgt : SetTarget) :
        after (.chSetst c tgt) s1 = s.setChan c ({ ch with idleMs := 0 }.setState s.cfg tgt) := by
      rw [after_chSetst, State.updChan_updChan, State.updChan_cfg]
      rfl
    rw [moved, moved, htarget]
    change Host.Outcome.next (s.hostCommand _) = _
    rw [State.hostCommand_eq]
    dsimp only
    by_cases off : idx = 0
    · subst off
      rfl
    by_cases on : idx = 2
    · subst on
      rfl
    · rw [if_neg off, if_neg on, if_pos (show idx ≠ 0 ∧ idx ≠ 2 from ⟨off, on⟩)]
  · intro ch s1
    have moved (f : Channel → Channel) :
        s1.updChan c f = s.setChan c (f { ch with fixedDuty := d.setWidth 7, idleMs := 0 }) := by
      rw [State.updChan_updChan]
      rfl
    rw [after_chSetst, after_dccSet, moved, moved, State.updChan_cfg]
    change Host.Outcome.next (s.hostCommand _) = _
    rw [State.hostCommand_eq]
    dsimp only
    split_ifs with halted range disabled unknown state fixed
    · rfl
    · rfl
    · rfl
    · rfl
    · rfl
    · rw [toInt_of_le_100 (Nat.le_of_not_lt range)]
    · rfl

/-! User interactions (R187, R201 to R204) -/

theorem interactTurn_eq (c : Chan) (s : State) : interactTurn c s = s.updChan c (Channel.interact s.cfg) := by
  unfold interactTurn
  dsimp only
  rw [after_chSetst, State.chan_updChan, State.updChan_updChan, State.updChan_cfg]
  split_ifs with setback
  · exact State.updChan_congr s c (if_pos setback).symm
  · exact State.updChan_congr s c (if_neg setback).symm

theorem nextIdx_num (p : Idx3) : (nextIdx p).num = (p.num + 1) % 3 := by cases p <;> rfl

/-- The interaction after a command has written its channel. -/
theorem interactTurn_updChan (c : Chan) (s : State) (f : Channel → Channel) :
    interactTurn c (s.updChan c f) = s.setChan c ((f (s.chan c)).interact s.cfg) := by
  rw [interactTurn_eq, State.updChan_updChan, State.updChan_cfg]
  rfl

/-- Settles O51: each command writes its channel, then runs the interaction. -/
theorem userInteractions : Obligations.UserInteractions := by
  refine fun c s => ⟨fun t => ?_, ⟨nextIdx (s.chan c).preset, nextIdx_num _, ?_⟩, ?_⟩
  · rw [interactTurn_updChan]
    rfl
  · rw [interactTurn_updChan]
    rfl
  · rw [interactTurn_eq]
    rfl

/-- Settles O52: the guards in their order; the slot's gains, then the interaction. -/
theorem changeOfTip : Obligations.ChangeOfTip := by
  intro c slot s ch i
  rw [interactTurn_updChan, after_trapFatal]
  change Host.Outcome.next (s.hostCommand _) = _
  rw [State.hostCommand_eq]
  have unallocated : (s.tip i).allocated = false ↔ (s.tip i).name = 0xFFFF := by
    simp [TipRecord.allocated, freeEntry]
  simp only [i, ← unallocated]
  rfl

/-! Queries (R206 to R210, R169) -/

/-- R98, R283: a query answers a value, or is rejected while the machine is halted. -/
theorem exec_query {i : Instr} {s : State} {f : State → RegWord} {v : RegWord}
    (h : exec i s = .next (s.hostCommand fun s => s.accept (f s))) (hv : f s = v) :
    exec i s = .next (if s.fatal then s.reject .halted else { s with resp := v, respOk := true }) := by
  rw [h, State.hostCommand_eq, hv]
  rfl

/-- R35: in `setback` the effective target is the smaller of the two temperatures. -/
theorem Channel.toNat_effTarget (ch : Channel) : ch.effTarget.toNat =
    if ch.state = .setback then min ch.setbackTemp.toNat ch.userTemp.toNat else ch.userTemp.toNat := by
  unfold Channel.effTarget
  split_ifs <;> omega

/-- Settles O53: the value of each query. -/
theorem channelQueries : Obligations.ChannelQueries := by
  intro c s ch answer
  refine ⟨exec_query rfl ?_, exec_query rfl rfl, exec_query rfl ?_, exec_query rfl rfl, exec_query rfl ?_,
    exec_query rfl rfl⟩
  · change natWord ch.state.code = _
    cases ch.state <;> rfl
  · change zext ch.effTarget = _
    rw [zext, ← BitVec.ofNat_toNat, Channel.toNat_effTarget]
  · change natWord (bit ch.tempModified) = _
    unfold Channel.tempModified
    split_ifs with same
    · rw [same]
      simp [bit, natWord]
    · simp [bit, natWord, same]

end Sys2Proof.Machine

/-! # The identification resistor (R192, R193) -/

namespace Sys2Proof.Machine

/-! The nearest value of a rising list -/

/-- `v` is nearer to `r` than `w`, or as near and not above it (R192). -/
def NearerOrLower (r v w : Nat) : Prop := ohmDist r v < ohmDist r w ∨ (ohmDist r v = ohmDist r w ∧ v ≤ w)

theorem NearerOrLower.refl (r v : Nat) : NearerOrLower r v v := .inr ⟨rfl, le_rfl⟩

theorem NearerOrLower.trans {r u v w : Nat} (huv : NearerOrLower r u v) (hvw : NearerOrLower r v w) :
    NearerOrLower r u w := by
  unfold NearerOrLower at *
  omega

theorem NearerOrLower.antisymm {r v w : Nat} (hvw : NearerOrLower r v w) (hwv : NearerOrLower r w v) : v = w := by
  unfold NearerOrLower at *
  omega

/-- One turn of E12Round's search: of the best value so far and the next. -/
def nearer (r best v : Nat) : Nat := if ohmDist r v < ohmDist r best then v else best

theorem nearer_nearest {r best v : Nat} (h : best < v) :
    NearerOrLower r (nearer r best v) best ∧ NearerOrLower r (nearer r best v) v := by
  unfold nearer NearerOrLower
  split <;> omega

/-- R192: searching a rising list finds its nearest value, of two equally near ones the lower. -/
theorem foldl_nearer (r : Nat) (l : List Nat) : ∀ best, (best :: l).Pairwise (· < ·) →
    l.foldl (nearer r) best ∈ best :: l ∧ ∀ v ∈ best :: l, NearerOrLower r (l.foldl (nearer r) best) v := by
  induction l with
  | nil =>
    intro best _
    refine ⟨List.mem_singleton.2 rfl, fun v hv => ?_⟩
    rw [List.mem_singleton.1 hv]
    exact .refl r best
  | cons w l ih =>
    intro best rising
    obtain ⟨hbest, hrest⟩ := List.pairwise_cons.1 rising
    obtain ⟨hw, hl⟩ := List.pairwise_cons.1 hrest
    have chosen : nearer r best w = best ∨ nearer r best w = w := by
      unfold nearer
      split
      · exact .inr rfl
      · exact .inl rfl
    have hrising : (nearer r best w :: l).Pairwise (· < ·) := by
      refine List.pairwise_cons.2 ⟨fun v hv => ?_, hl⟩
      rcases chosen with h | h <;> rw [h]
      · exact hbest v (List.mem_cons_of_mem w hv)
      · exact hw v hv
    obtain ⟨hmem, hnearest⟩ := ih (nearer r best w) hrising
    obtain ⟨hleft, hright⟩ := nearer_nearest (r := r) (hbest w List.mem_cons_self)
    rw [List.foldl_cons]
    refine ⟨?_, fun v hv => ?_⟩
    · rcases List.mem_cons.1 hmem with hm | hm
      · rw [hm]
        rcases chosen with h | h <;> rw [h]
        · exact List.mem_cons_self
        · exact List.mem_cons_of_mem best List.mem_cons_self
      · exact List.mem_cons_of_mem best (List.mem_cons_of_mem w hm)
    · have head := hnearest _ List.mem_cons_self
      rcases List.mem_cons.1 hv with rfl | hv
      · exact head.trans hleft
      rcases List.mem_cons.1 hv with rfl | hv
      · exact head.trans hright
      · exact hnearest v (List.mem_cons_of_mem _ hv)

/-! E12Round (R192) -/

theorem e12Values_rising : e12Values.Pairwise (· < ·) := by decide

theorem mem_e12Values {v : Nat} : v ∈ e12Values ↔ ∃ b ∈ e12Base, ∃ d, d ≤ 4 ∧ v = b * 10 ^ d := by
  have powers : [1, 10, 100, 1000, 10000] = (List.range 5).map (10 ^ ·) := by decide
  unfold e12Values
  simp only [powers, List.mem_flatMap, List.mem_map, List.mem_range]
  constructor
  · rintro ⟨p, ⟨d, hd, rfl⟩, b, hb, rfl⟩
    exact ⟨b, hb, d, Nat.le_of_lt_succ hd, rfl⟩
  · rintro ⟨b, hb, d, hd, rfl⟩
    exact ⟨10 ^ d, ⟨d, Nat.lt_succ_of_le hd, rfl⟩, b, hb, rfl⟩

theorem e12Round_nearest (r : Nat) :
    e12Round r ∈ e12Values ∧ ∀ v ∈ e12Values, NearerOrLower r (e12Round r) v := by
  obtain ⟨l, values⟩ : ∃ l, e12Values = 10 :: l := ⟨_, rfl⟩
  have rising := e12Values_rising
  have search : e12Round r = l.foldl (nearer r) 10 := by
    change e12Values.foldl (nearer r) 10 = _
    rw [values, List.foldl_cons, nearer, ite_self]
  rw [values] at rising
  rw [search, values]
  exact foldl_nearer r l 10 rising

/-- Between two neighbours, E12Round is a value exactly above one midpoint and up to the other. -/
theorem e12Round_eq_iff {lo v hi : Nat} (hlo : lo ∈ e12Values) (hv : v ∈ e12Values) (hhi : hi ∈ e12Values)
    (gap : ∀ w ∈ e12Values, w ≤ lo ∨ w = v ∨ hi ≤ w) (below : lo < v) (above : v < hi) (r : Nat) :
    e12Round r = v ↔ lo + v < 2 * r ∧ 2 * r ≤ v + hi := by
  obtain ⟨hmem, hnearest⟩ := e12Round_nearest r
  constructor
  · intro h
    have left := hnearest lo hlo
    have right := hnearest hi hhi
    rw [h] at left right
    unfold NearerOrLower ohmDist at left right
    omega
  · intro h
    refine (hnearest v hv).antisymm ?_
    have side := gap _ hmem
    unfold NearerOrLower ohmDist
    omega

/-- R193: the ranges of the four iron types. -/
theorem e12Round_irons (r : Nat) :
    (e12Round r = 2200 ↔ 2001 ≤ r ∧ r ≤ 2450) ∧ (e12Round r = 3300 ↔ 3001 ≤ r ∧ r ≤ 3600)
      ∧ (e12Round r = 5600 ↔ 5151 ≤ r ∧ r ≤ 6200) ∧ (e12Round r = 10000 ↔ 9101 ≤ r ∧ r ≤ 11000) := by
  have t12 := e12Round_eq_iff (lo := 1800) (v := 2200) (hi := 2700) (by decide) (by decide) (by decide)
    (by decide) (by decide) (by decide) r
  have jbc := e12Round_eq_iff (lo := 2700) (v := 3300) (hi := 3900) (by decide) (by decide) (by decide)
    (by decide) (by decide) (by decide) r
  have tweezers := e12Round_eq_iff (lo := 4700) (v := 5600) (hi := 6800) (by decide) (by decide) (by decide)
    (by decide) (by decide) (by decide) r
  have weller := e12Round_eq_iff (lo := 8200) (v := 10000) (hi := 12000) (by decide) (by decide) (by decide)
    (by decide) (by decide) (by decide) r
  omega

/-- Settles O37: the search finds the nearest value; a type's range runs from midpoint to midpoint. -/
theorem resistorRounding : Obligations.ResistorRounding := by
  intro r base away
  obtain ⟨hmem, hnearest⟩ := e12Round_nearest r
  have haway (v : Nat) : away v = ohmDist r v := by
    simp only [away, ohmDist]
    omega
  refine ⟨?_, fun b hb d hd => ?_, ?_⟩
  · obtain ⟨b, hb, d, hd, h⟩ := mem_e12Values.1 hmem
    exact ⟨b, hb, d, hd, h⟩
  · rw [haway, haway]
    exact hnearest _ (mem_e12Values.2 ⟨b, hb, d, hd, rfl⟩)
  · obtain ⟨t12, jbc, tweezers, weller⟩ := e12Round_irons r
    unfold ironOf
    simp only [t12, jbc, tweezers, weller]

end Sys2Proof.Machine

/-! # The transition table (R181) -/

namespace Sys2Proof.Machine

/-! The control update (R197, R228: T5, T7, T8) -/

/-- R197: the idle timer after `ms` more milliseconds. -/
def Channel.idleAfter (ms : Nat) (ch : Channel) : Nat := min (ch.idleMs.toNat + ms) (2 ^ 32 - 1)

/-- R197: the moves of the idle timer, each with its guard; safety-off goes first. -/
theorem Channel.idle_moves (cfg : Config) (ms : Nat) (ch : Channel) :
    (ch.state.isRunning = true ∧ ch.safetyOffTime.toNat * 1000 ≤ ch.idleAfter ms ∧ (ch.idle cfg ms).state = .off)
      ∨ (ch.state = .active ∧ ch.setbackTime.toNat * 1000 ≤ ch.idleAfter ms
        ∧ ch.idleAfter ms < ch.safetyOffTime.toNat * 1000 ∧ (ch.idle cfg ms).state = .setback)
      ∨ (ch.idle cfg ms).state = ch.state := by
  unfold Channel.idle
  dsimp only
  split
  · next off => exact .inl ⟨off.1, off.2, Channel.setState_state cfg .off _⟩
  next notOff =>
  split
  · next setback =>
    refine .inr (.inl ⟨setback.1, setback.2, Nat.lt_of_not_le fun late => notOff ⟨?_, late⟩,
      Channel.setState_state cfg .setback _⟩)
    rw [setback.1]
    rfl
  · exact .inr (.inr rfl)

theorem tipSensed_eq (ch : Channel) : tipSensed ch = ch.tipPresent := by
  unfold tipSensed Channel.tipPresent
  cases ch.iron <;> rfl

/-- R228: after the idle timer only a missing tip moves the state. -/
theorem Channel.update_state (cfg : Config) (tips : List TipRecord) (ch : Channel) :
    (ch.update cfg tips).state =
      if (ch.idle cfg cfg.idleTickMs).state.isHeating = true ∧ tipSensed (ch.update cfg tips) = false then .noTip
      else (ch.idle cfg cfg.idleTickMs).state := by
  have sensed : tipSensed (ch.update cfg tips) = (ch.idle cfg cfg.idleTickMs).tipPresent := by
    rw [← tipSensed_eq, TurnWrites.update, TurnWrites.idle]
    rfl
  rw [sensed]
  unfold Channel.update
  dsimp only
  rw [Channel.updDrive_frame, Channel.measUpd_frame]
  dsimp only
  split
  · exact Channel.setState_state cfg .noTip _
  · rfl

theorem isHeating_iff (st : ChState) : st.isHeating = true ↔ st = .active ∨ st = .setback := by
  cases st <;> decide

/-- R181: a turn of the control update moves the state along T5, T7 and T8. -/
theorem Channel.update_moved {cfg : Config} {tips : List TipRecord} {ch : Channel}
    (h : (ch.update cfg tips).state ≠ ch.state) :
    MovedByUpdate cfg ch (tipSensed (ch.update cfg tips)) (ch.update cfg tips).state := by
  have hstate := Channel.update_state cfg tips ch
  have moves := Channel.idle_moves cfg cfg.idleTickMs ch
  by_cases missing : (ch.idle cfg cfg.idleTickMs).state.isHeating = true ∧ tipSensed (ch.update cfg tips) = false
  · rw [if_pos missing] at hstate
    obtain ⟨heating, absent⟩ := missing
    refine .inr (.inr ⟨?_, absent, hstate⟩)
    rcases moves with ⟨-, -, off⟩ | ⟨active, -⟩ | same
    · rw [off] at heating
      cases heating
    · exact .inl active
    · rw [same] at heating
      exact (isHeating_iff _).1 heating
  · rw [if_neg missing] at hstate
    rcases moves with ⟨running, late, off⟩ | ⟨active, late, early, setback⟩ | same
    · exact .inl ⟨ch.isRunning_iff.1 running, late, hstate.trans off⟩
    · exact .inr (.inl ⟨active, late, early, hstate.trans setback⟩)
    · exact absurd (hstate.trans same) h

/-- R197, R228: a control update moves no stopped channel. -/
theorem Channel.update_stopped {cfg : Config} {tips : List TipRecord} {ch : Channel}
    (stopped : ch.isRunning = false) : (ch.update cfg tips).state = ch.state := by
  by_contra h
  have running : ch.isRunning = true := by
    refine ch.isRunning_iff.2 ?_
    rcases Channel.update_moved h with ⟨running, -⟩ | ⟨active, -⟩ | ⟨active | setback, -⟩
    · exact running
    · exact .inl active
    · exact .inl active
    · exact .inr (.inl setback)
  exact absurd (running.symm.trans stopped) nofun

/-- What the guards of a control update read of a channel is the same in both. -/
structure SameForUpdate (x y : Channel) : Prop where
  state : y.state = x.state
  idleMs : y.idleMs = x.idleMs
  setbackTime : y.setbackTime = x.setbackTime
  safetyOffTime : y.safetyOffTime = x.safetyOffTime

theorem SameForUpdate.moved {x y : Channel} (h : SameForUpdate x y) {cfg : Config} {present : Bool} {b : ChState}
    (hy : MovedByUpdate cfg y present b) : MovedByUpdate cfg x present b := by
  unfold MovedByUpdate at *
  rwa [h.state, h.idleMs, h.setbackTime, h.safetyOffTime] at hy

theorem SameForUpdate.buildPart (cfg : Config) (x : Channel) : SameForUpdate x (x.buildPart cfg).2 := by
  rw [Channel.buildPart_frame]
  exact ⟨rfl, rfl, rfl, rfl⟩

theorem SameForUpdate.takeSample (cfg : Config) (slot : Slot) (raw : BitVec 16) (x : Channel) :
    SameForUpdate x (x.takeSample cfg slot raw) := by
  cases slot <;> exact ⟨rfl, rfl, rfl, rfl⟩

/-- R222: EV.TMR builds a channel's part of the queue, and may run its turn of the control update. -/
theorem State.evTmr_chan (s : State) (c : Chan) :
    s.evTmr.chan c = s.chan c ∨ s.evTmr.chan c = ((s.chan c).buildPart s.cfg).2
      ∨ s.evTmr.chan c = (((s.chan c).buildPart s.cfg).2).update s.cfg s.tips := by
  unfold State.evTmr
  split
  · exact .inl rfl
  split
  · exact .inl rfl
  dsimp only
  split
  · exact .inr (.inr (by cases c <;> rfl))
  · exact .inr (.inl (by cases c <;> rfl))

theorem State.evTmr_moved {s : State} {c : Chan} (h : (s.evTmr.chan c).state ≠ (s.chan c).state) :
    MovedByUpdate s.cfg (s.chan c) (tipSensed (s.evTmr.chan c)) (s.evTmr.chan c).state := by
  have built := SameForUpdate.buildPart s.cfg (s.chan c)
  rcases s.evTmr_chan c with heq | heq | heq <;> rw [heq] at h ⊢
  · exact absurd rfl h
  · exact absurd built.state h
  · exact built.moved (Channel.update_moved (built.state ▸ h))

/-! Identification (R191, R194: T2, T3) -/

section

variable {cfg : Config} {tips : List TipRecord} {ch : Channel}

theorem Channel.setIron_iron (t : Iron) : (ch.setIron cfg tips t).1.iron = t := by
  unfold Channel.setIron
  split
  · next same =>
    dsimp only
    split
    · rw [Channel.setState_iron, same]
    · exact same.symm
  next change =>
  dsimp only
  split
  · next unknown =>
    rw [if_neg (unknown ▸ Ne.symm change), unknown]
    rfl
  · exact (Channel.takeIron_tip t).1

theorem Channel.takeIron_state (t : Iron) :
    (ch.takeIron cfg tips t).1.state = if ch.state = .noTool then .off else ch.state := by
  obtain ⟨tip, selected, k, htake⟩ := Channel.takeIron_cases cfg tips t ch
  rw [htake]
  split
  · exact Channel.setState_state cfg .off _
  · rfl

/-- R194: the state an iron change drops to, on the way through `Unknown`. -/
def droppedState (old : Iron) (a : ChState) : ChState :=
  if old = .unknown then a else if a = .overload then .overload else .noTool

theorem Channel.setIron_state_of_ne {t : Iron} (h : t ≠ ch.iron) :
    (ch.setIron cfg tips t).1.state =
      if t ≠ .unknown ∧ droppedState ch.iron ch.state = .noTool then .off else droppedState ch.iron ch.state := by
  have dropped : (if ch.iron = .unknown then ch else ch.dropIron cfg).state = droppedState ch.iron ch.state := by
    unfold droppedState
    split
    · rfl
    · exact Channel.dropIron_state cfg ch
  unfold Channel.setIron
  rw [if_neg h]
  dsimp only
  generalize (if ch.iron = .unknown then ch else ch.dropIron cfg) = d at dropped ⊢
  by_cases unknown : t = .unknown
  · rw [if_pos unknown, if_neg fun hne => hne.1 unknown]
    exact dropped
  · rw [if_neg unknown, Channel.takeIron_state, dropped]
    exact if_congr (by simp [unknown]) rfl rfl

/-- R181, R194: an identification of a stopped channel moves its state along T2 and T3. -/
theorem Channel.setIron_moved (inv : StateInv ch) (stopped : ch.isRunning = false) (t : Iron)
    (h : (ch.setIron cfg tips t).1.state ≠ ch.state) :
    MovedByIdentification ch.iron t ch.state (ch.setIron cfg tips t).1.state := by
  by_cases same : t = ch.iron
  · unfold Channel.setIron at h ⊢
    rw [if_pos same] at h ⊢
    dsimp only at h ⊢
    split at h
    · next first =>
      rw [if_pos first]
      exact .inl ⟨.inl first.2, first.1, Channel.setState_state cfg .noTool ch⟩
    · exact absurd rfl h
  rw [Channel.setIron_state_of_ne same] at h ⊢
  by_cases old : ch.iron = .unknown
  · rw [droppedState, if_pos old] at h ⊢
    split at h
    · next taken => rw [if_pos taken]; exact .inr (.inl ⟨taken.2, taken.1, rfl⟩)
    · exact absurd rfl h
  rw [droppedState, if_neg old] at h ⊢
  by_cases overload : ch.state = .overload
  · rw [if_pos overload, if_neg (by simp)] at h
    exact absurd overload.symm h
  rw [if_neg overload] at h ⊢
  have atRest : ch.state = .off ∨ ch.state = .noTip := by
    have noTool := inv.ne_noTool old
    unfold Channel.isRunning at stopped
    cases hst : ch.state <;> simp_all [ChState.isRunning]
  by_cases known : t = .unknown
  · rw [if_neg fun hne => hne.1 known]
    exact .inl ⟨atRest, known, rfl⟩
  · rw [if_pos ⟨known, rfl⟩] at h ⊢
    exact .inr (.inr ⟨atRest.resolve_left (Ne.symm h), known, same, rfl⟩)

theorem Channel.ident_moved (inv : StateInv ch) (stopped : ch.isRunning = false) (raw : Nat) :
    (ch.ident cfg tips raw).1.state = ch.state
      ∨ MovedByIdentification ch.iron (ch.ident cfg tips raw).1.iron ch.state (ch.ident cfg tips raw).1.state := by
  by_cases same : (ch.ident cfg tips raw).1.state = ch.state
  · exact .inl same
  · right
    have moved := Channel.setIron_moved (ch := { ch with idOhms := BitVec.ofNat 32 (idResistance cfg raw) })
      inv stopped _ same
    unfold Channel.ident
    rwa [Channel.setIron_iron]

/-- R194: an identification starts no channel. -/
theorem Channel.ident_stopped (inv : StateInv ch) (stopped : ch.isRunning = false) (raw : Nat) :
    (ch.ident cfg tips raw).1.isRunning = false := by
  unfold Channel.isRunning at *
  rcases Channel.ident_moved (cfg := cfg) (tips := tips) inv stopped raw with same | moved
  · rwa [same]
  · rcases moved with ⟨-, -, h⟩ | ⟨-, -, h⟩ | ⟨-, -, -, h⟩ <;> rw [h] <;> rfl

end

/-- What EV.ADC does to a channel before the queue moves on: a sample of it, or its identification (R189). -/
inductive SampledChannel (cfg : Config) (tips : List TipRecord) (tag : MuxCode) (c : Chan) (x : Channel) :
    Channel → Prop where
  | same {y : Channel} (same : SameForUpdate x y) : SampledChannel cfg tips tag c x y
  | identified (raw : Nat) (code : muxStrip tag = mxId) (channel : chanOf tag = c) (stopped : x.isRunning = false) :
      SampledChannel cfg tips tag c x (x.ident cfg tips raw).1

theorem SameForUpdate.refl (x : Channel) : SameForUpdate x x := ⟨rfl, rfl, rfl, rfl⟩

/-- R189: an identification is taken at its own code only. -/
theorem State.chProc_sampled {tag : MuxCode} {raw : BitVec 16} {s u : State}
    (h : s.chProc (chanOf tag) (muxStrip tag) raw = .done u) (c : Chan) :
    SampledChannel s.cfg s.tips tag c (s.chan c) (u.chan c) := by
  unfold State.chProc State.measProc at h
  split at h
  · next code =>
    split at h <;> cases h
    · exact .same (.refl _)
    · next stopped =>
      by_cases hc : chanOf tag = c
      · subst hc
        rw [State.putChannel_chan_same]
        exact .identified raw.toNat code rfl (by simpa using stopped)
      · rw [State.putChannel_chan_other _ _ (Ne.symm hc)]
        exact .same (.refl _)
  · split at h <;> cases h
    next slot _ =>
    rw [State.updChan_eq, State.chan_setChan]
    split
    · next hc => rw [hc]; exact .same (.takeSample ..)
    · exact .same (.refl _)

/-- Everything EV.ADC does to a channel's state (R225, R226). -/
theorem State.evAdc_sampled (tag : MuxCode) (raw : BitVec 16) (s : State) (c : Chan) :
    ((s.evAdc tag raw).chan c).state = (s.chan c).state
      ∨ ∃ y, SampledChannel s.cfg s.tips tag c (s.chan c) y
        ∧ ((s.evAdc tag raw).chan c = y ∨ ∃ tips, (s.evAdc tag raw).chan c = y.update s.cfg tips) := by
  have idle : State.chan { s with adcBusy := false } c = s.chan c := by cases c <;> rfl
  have trapped (u : State) (code : FatalCause) : ((u.raiseFatal code).chan c).state = (u.chan c).state := by
    rw [State.raiseFatal_chan]
  unfold State.evAdc
  split
  · exact .inl rfl
  split
  · exact .inl (trapped s _)
  rcases State.chProc_cases (chanOf tag) (muxStrip tag) raw { s with adcBusy := false } with
    ⟨u, taken, hproc⟩ | hproc
  · have sampled := State.chProc_sampled hproc c
    have hcfg : u.cfg = s.cfg := by rw [taken.frame]
    rw [idle] at sampled
    rw [hproc]
    refine .inr ⟨u.chan c, sampled, ?_⟩
    rcases u.adcAdvance_chan c with h | h
    · exact .inl h
    · exact .inr ⟨u.tips, hcfg ▸ h⟩
  · rw [hproc]
    exact .inl ((trapped _ _).trans (congrArg Channel.state idle))

/-- R181: EV.ADC moves a channel's state by a control update, or by the identification its tag carries. -/
theorem State.evAdc_moved {s : State} {tag : MuxCode} {raw : BitVec 16} {c : Chan} (inv : StateInv (s.chan c))
    (h : ((s.evAdc tag raw).chan c).state ≠ (s.chan c).state) :
    MovedByUpdate s.cfg (s.chan c) (tipSensed ((s.evAdc tag raw).chan c)) ((s.evAdc tag raw).chan c).state
      ∨ (muxStrip tag = mxId ∧ chanOf tag = c
        ∧ MovedByIdentification (s.chan c).iron ((s.evAdc tag raw).chan c).iron (s.chan c).state
            ((s.evAdc tag raw).chan c).state) := by
  rcases State.evAdc_sampled tag raw s c with same | ⟨y, sampled, after⟩
  · exact absurd same h
  cases sampled with
  | same same =>
    rcases after with heq | ⟨tips, heq⟩ <;> rw [heq] at h ⊢
    · exact absurd same.state h
    · exact .inl (same.moved (Channel.update_moved (same.state ▸ h)))
  | identified n code channel stopped =>
    refine .inr ⟨code, channel, ?_⟩
    have kept : ((s.evAdc tag raw).chan c).state = ((s.chan c).ident s.cfg s.tips n).1.state
        ∧ ((s.evAdc tag raw).chan c).iron = ((s.chan c).ident s.cfg s.tips n).1.iron := by
      rcases after with heq | ⟨tips, heq⟩ <;> rw [heq]
      · exact ⟨rfl, rfl⟩
      · exact ⟨Channel.update_stopped (Channel.ident_stopped inv stopped n), (TurnWrites.update _ _ _).iron⟩
    rw [kept.1] at h ⊢
    rw [kept.2]
    exact (Channel.ident_moved inv stopped n).resolve_left h

/-! Host commands (R181: T4, T6, T10 to T14) -/

theorem Channel.switchedOff {ch : Channel} (inv : StateInv ch) {b : ChState} (hb : b = targetState ch.offTarget)
    (h : b ≠ ch.state) : SwitchedOff ch.iron ch.state b := by
  rw [Channel.offTarget_eq] at hb
  by_cases unknown : ch.iron = .unknown
  · rw [if_pos unknown] at hb
    subst hb
    rcases inv.1 unknown with noTool | overload | off
    · exact absurd noTool.symm h
    · exact .inr (.inl ⟨.inl overload, (if_pos unknown).symm⟩)
    · exact .inr (.inr ⟨off, unknown, rfl⟩)
  · rw [if_neg unknown] at hb
    subst hb
    have noTool := inv.ne_noTool unknown
    cases hst : ch.state with
    | off => exact absurd hst.symm h
    | noTool => exact absurd hst noTool
    | active | setback | fixedPower => exact .inl ⟨by simp, rfl⟩
    | overload | noTip => exact .inr (.inl ⟨by simp, (if_neg unknown).symm⟩)

theorem State.disable_chan (s : State) (c : Chan) :
    (s.disable.accept 0).chan c = (s.chan c).setState s.cfg (s.chan c).offTarget := by cases c <;> rfl

section

variable {s t : State} {c : Chan}

theorem ctlDisable_moved (inv : StateInv (s.chan c)) (running : s.fatal = false) (h : exec .ctlDisable s = .next t)
    (hne : (t.chan c).state ≠ (s.chan c).state) : SwitchedOff (s.chan c).iron (s.chan c).state (t.chan c).state := by
  cases h
  rw [State.hostCommand_running _ running, State.disable_chan, Channel.setState_state] at hne ⊢
  exact Channel.switchedOff inv rfl hne

theorem ctlToggle_moved (inv : StateInv (s.chan c)) (running : s.fatal = false) (h : exec .ctlToggle s = .next t)
    (hne : (t.chan c).state ≠ (s.chan c).state) :
    s.ctlEnabled = true ∧ SwitchedOff (s.chan c).iron (s.chan c).state (t.chan c).state := by
  cases h
  rw [State.hostCommand_running _ running] at hne ⊢
  cases enabled : s.ctlEnabled with
  | true =>
    simp only [enabled, if_true, State.disable_chan, Channel.setState_state] at hne ⊢
    exact ⟨trivial, Channel.switchedOff inv rfl hne⟩
  | false =>
    simp only [enabled, Bool.false_eq_true, if_false] at hne
    exact absurd (by cases c <;> rfl) hne

/-- A rejected command moves no channel. -/
theorem not_moved_of_reject {e : RejectCode} {p : Prop} (h : (s.reject e) = t)
    (hne : (t.chan c).state ≠ (s.chan c).state) : p := by
  subst h
  exact absurd (by rw [State.reject_chan]) hne

/-- R185: a command that ends in SetState leaves the state it asked for. -/
theorem after_chSetst_state (u : State) (tgt : SetTarget) (v : RegWord) :
    (((after (.chSetst c tgt) u).accept v).chan c).state = targetState tgt := by
  rw [State.accept_chan, after_chSetst, State.chan_updChan, Channel.setState_state]

/-- R200, R205: where a channel with an iron can be switched on from. -/
theorem StateInv.startable {ch : Channel} (inv : StateInv ch) (known : ch.iron ≠ .unknown)
    (ok : ¬(ch.state = .overload ∨ ch.state = .noTip)) :
    ch.state = .off ∨ ch.state = .active ∨ ch.state = .setback ∨ ch.state = .fixedPower := by
  have noTool := inv.ne_noTool known
  cases hst : ch.state <;> simp_all

theorem chSetstate_moved {idx : BitVec 4} (inv : StateInv (s.chan c)) (h : exec (.chSetstate c idx) s = .next t)
    (hne : (t.chan c).state ≠ (s.chan c).state) : TransitionAllowed (.chSetstate c idx) c s t := by
  rw [switchOnOffAndFixedPower.1 c idx s] at h
  injection h with h
  split at h
  · exact not_moved_of_reject h hne
  split at h
  · exact not_moved_of_reject h hne
  next requested =>
  split at h
  · next off =>
    have target : (t.chan c).state = targetState (s.chan c).offTarget := by
      rw [← h, Channel.offTarget_eq]
      exact after_chSetst_state _ _ _
    exact ⟨rfl, .inl ⟨off, Channel.switchedOff inv target hne⟩⟩
  next notOff =>
  split at h
  · exact not_moved_of_reject h hne
  next enabled =>
  split at h
  · exact not_moved_of_reject h hne
  next known =>
  split at h
  · exact not_moved_of_reject h hne
  next tip =>
  split at h
  · exact not_moved_of_reject h hne
  next ok =>
  have target : (t.chan c).state = .active := by
    rw [← h]
    exact after_chSetst_state _ _ _
  have on : idx = 2 := by_contra fun hidx => requested ⟨notOff, hidx⟩
  rw [target] at hne
  refine ⟨rfl, .inr ⟨on, by simpa using enabled, known, tip, ?_, target⟩⟩
  rcases inv.startable known ok with off | active | setback | fixed
  · exact .inl off
  · exact absurd active.symm hne
  · exact .inr (.inl setback)
  · exact .inr (.inr fixed)

theorem chFixedpwr_moved {d : BitVec 32} (inv : StateInv (s.chan c)) (h : exec (.chFixedpwr c d) s = .next t)
    (hne : (t.chan c).state ≠ (s.chan c).state) : TransitionAllowed (.chFixedpwr c d) c s t := by
  rw [switchOnOffAndFixedPower.2 c d s] at h
  injection h with h
  split at h
  · exact not_moved_of_reject h hne
  split at h
  · exact not_moved_of_reject h hne
  split at h
  · exact not_moved_of_reject h hne
  next enabled =>
  split at h
  · exact not_moved_of_reject h hne
  next known =>
  split at h
  · exact not_moved_of_reject h hne
  next ok =>
  split at h
  · subst h
    rw [State.accept_chan, after_dccSet, State.chan_updChan, State.chan_updChan] at hne
    exact absurd rfl hne
  next other =>
  have target : (t.chan c).state = .fixedPower := by
    rw [← h]
    exact after_chSetst_state _ _ _
  refine ⟨rfl, by simpa using enabled, known, ?_, target⟩
  rcases inv.startable known ok with off | active | setback | fixed
  · exact .inl off
  · exact .inr (.inl active)
  · exact .inr (.inr setback)
  · exact absurd fixed other

/-- R187: an interaction restores `active` from `setback` and moves nothing else. -/
theorem Channel.interact_moved {cfg : Config} {ch : Channel} (h : (ch.interact cfg).state ≠ ch.state) :
    ch.state = .setback ∧ (ch.interact cfg).state = .active := by
  rw [Channel.interact_state] at h ⊢
  split at h
  · next setback => exact ⟨setback, if_pos setback⟩
  · exact absurd rfl h

/-- R187: T6, after a command has written its channel's other elements. -/
theorem interactTurn_moved {u : State} {v : RegWord} (h : (interactTurn c u).accept v = t)
    (hu : (u.chan c).state = (s.chan c).state) (hne : (t.chan c).state ≠ (s.chan c).state) :
    (s.chan c).state = .setback ∧ (t.chan c).state = .active := by
  subst h
  rw [State.accept_chan, interactTurn_eq, State.chan_updChan, ← hu] at hne ⊢
  exact Channel.interact_moved hne

theorem chSettemp_moved {v : BitVec 32} (h : exec (.chSettemp c v) s = .next t)
    (hne : (t.chan c).state ≠ (s.chan c).state) : (s.chan c).state = .setback ∧ (t.chan c).state = .active := by
  rw [(userInteractions c s).1 v] at h
  injection h with h
  split at h
  · exact not_moved_of_reject h hne
  split at h
  · exact not_moved_of_reject h hne
  · exact interactTurn_moved h (by rw [State.chan_updChan]) hne

theorem chNextpreset_moved (h : exec (.chNextpreset c) s = .next t) (hne : (t.chan c).state ≠ (s.chan c).state) :
    (s.chan c).state = .setback ∧ (t.chan c).state = .active := by
  obtain ⟨-, ⟨p, -, hexec⟩, -⟩ := userInteractions c s
  rw [hexec] at h
  injection h with h
  split at h
  · exact not_moved_of_reject h hne
  · exact interactTurn_moved h (by rw [State.chan_updChan]) hne

theorem chInteract_moved (h : exec (.chInteract c) s = .next t) (hne : (t.chan c).state ≠ (s.chan c).state) :
    (s.chan c).state = .setback ∧ (t.chan c).state = .active := by
  obtain ⟨-, -, hexec⟩ := userInteractions c s
  rw [hexec] at h
  injection h with h
  split at h
  · exact not_moved_of_reject h hne
  · exact interactTurn_moved h rfl hne

theorem chChangetip_moved {n : BitVec 32} (h : exec (.chChangetip c n) s = .next t)
    (hne : (t.chan c).state ≠ (s.chan c).state) : (s.chan c).state = .setback ∧ (t.chan c).state = .active := by
  rw [changeOfTip c n s] at h
  injection h with h
  split at h
  · exact not_moved_of_reject h hne
  split at h
  · exact not_moved_of_reject h hne
  split at h
  · exact not_moved_of_reject h hne
  split at h
  · subst h
    rw [State.reject_chan, after_trapFatal, State.raiseFatal_chan] at hne
    exact absurd rfl hne
  · exact interactTurn_moved h (by rw [State.chan_updChan]) hne

end

/-! Every operation -/

/-- Settles O19: only the operations that write a channel's state (O9) move it, each along its lines of the table. -/
theorem onlyTableTransitions : Obligations.OnlyTableTransitions := by
  intro i s t c hi hs h hne
  have inv : StateInv (s.chan c) := (((channelsInv_iff s).1 hs).1 c).stateInv
  by_cases rst : i = .evRst
  · subst rst
    cases h
    have fresh := resetWith_chan s.cfg s.chipTempIn s.rst c
    exact ⟨congrArg Channel.state fresh, congrArg Channel.iron fresh⟩
  have running : s.fatal = false := Bool.eq_false_iff.2 fun halted =>
    hne (congrArg Channel.state ((exec_halted hi rst halted h).chan c))
  rcases ((exec_written hi rst h).2 c).state hne with
    (rfl | ⟨tag, raw, rfl⟩) | rfl | (rfl | rfl) | (⟨idx, rfl⟩ | ⟨d, rfl⟩) | interacts
  · cases h
    exact State.evTmr_moved hne
  · rw [execEvAdc_eq h] at hne ⊢
    exact State.evAdc_moved inv hne
  · cases h
    change (s.evOc.chan c).state = .overload
    rw [State.evOc, if_neg (by simp [running])]
    cases c <;> rfl
  · exact ctlDisable_moved inv running h hne
  · exact ctlToggle_moved inv running h hne
  · exact chSetstate_moved inv h hne
  · exact chFixedpwr_moved inv h hne
  · rcases interacts with ⟨v, rfl⟩ | rfl | rfl | ⟨n, rfl⟩
    · exact ⟨beq_self_eq_true c, chSettemp_moved h hne⟩
    · exact ⟨beq_self_eq_true c, chNextpreset_moved h hne⟩
    · exact ⟨beq_self_eq_true c, chInteract_moved h hne⟩
    · exact ⟨beq_self_eq_true c, chChangetip_moved h hne⟩

end Sys2Proof.Machine

/-! # The scheduler (R220 to R239) -/

namespace Sys2Proof.Machine

/-! Zero crossings (R221, R231) -/

/-- R221, R231: a counter raises its request and starts again when it reaches its interval. -/
theorem tickCounter_eq (interval : Nat) (n : BitVec 16) :
    tickCounter interval n =
      (if decide (interval ≤ n.toNat + 1) then 0 else n + 1, decide (interval ≤ n.toNat + 1)) := by
  unfold tickCounter
  dsimp only
  by_cases due : interval ≤ n.toNat + 1
  · simp [due]
  · simp [due, BitVec.ofNat_add]

/-- Settles O43: the drives and the counters first, then the one of three ends whose guard holds. -/
theorem zeroCrossing : Obligations.ZeroCrossing := by
  intro s refresh report u
  have counted : s.zcAlways = u := by
    unfold State.zcAlways
    rw [tickCounter_eq, tickCounter_eq]
  change Host.Outcome.next s.evZc = _
  unfold State.evZc State.zcArm
  rw [counted]
  simp only [apply_ite Host.Outcome.next]
  rfl

/-! The timer and the sequencer (R222 to R224, R227) -/

/-- Settles O44: the two guards that ignore the pulse, then the new queue, which may be empty. -/
theorem timerExpiry : Obligations.TimerExpiry := by
  intro s u
  rw [ite_or]
  rfl

/-- R190, R224: the channel's identification is due in this interval. -/
def Channel.identDue (cfg : Config) (ch : Channel) : Bool :=
  !ch.isRunning && decide (cfg.identInterval ≤ ch.identCnt.toNat + 1)

/-- R190, R224: a channel's part of the queue, and its identification counter. -/
theorem Channel.buildPart_eq (cfg : Config) (ch : Channel) :
    ch.buildPart cfg =
      (if ch.identDue cfg then [mxId] else measSeq cfg ch,
        { ch with identCnt := if ch.isRunning || ch.identDue cfg then 0 else ch.identCnt + 1 }) := by
  unfold Channel.buildPart Channel.identDue
  dsimp only
  cases ch.isRunning with
  | true => rfl
  | false =>
    by_cases due : cfg.identInterval ≤ ch.identCnt.toNat + 1
    · simp [due]
    · simp [due, BitVec.ofNat_add]

/-- R224: the entries of a queue, the sentinel behind them. -/
theorem queueOf_getElem (l : List MuxCode) {i : Nat} (h : i < 8) : (queueOf l)[i] = l.getD i muxEnd := by
  interval_cases i <;> rfl

/-- Settles O45: each channel's part is tagged and counted; SEQ.NEXT is its definition. -/
theorem sequenceBuiltAndStarted : Obligations.SequenceBuiltAndStarted := by
  constructor
  · intro s due count part l
    refine ⟨queueOf l, ?_, fun i hi => queueOf_getElem l hi⟩
    change Host.Outcome.next s.seqBuild = _
    unfold State.seqBuild
    rw [Channel.buildPart_eq, Channel.buildPart_eq]
    rfl
  · exact fun _ => rfl

/-! A completion (R225, R226) -/

/-- R189: CH.PROC hands over no result. -/
theorem after_chProc_eq (c : Chan) (m : MuxCode) (raw : BitVec 16) (s : State) :
    after (.chProc c m raw) s = (s.chProc c m raw).state := by
  rw [after_chProc]
  rcases State.chProc_cases c m raw s with ⟨u, taken, h⟩ | h <;> rw [h]
  · rw [Handled.state, taken.frame]
  · rfl

/-- R97: a raw value the pins can carry is not refused. -/
theorem exec_evAdc {tag : BitVec 8} {raw : BitVec 16} {s : State} (h : raw.toNat ≤ s.cfg.adcFs) :
    exec (.evAdc tag raw) s = .next (s.evAdc tag raw) := if_neg (Nat.not_lt.2 h)

/-- R226: after a sample that raised no trap the queue moves on from where it stood. -/
theorem SampleTaken.adcAdvance {c : Chan} {raw : BitVec 16} {s u : State} (h : SampleTaken c raw s u) :
    u.adcAdvance =
      if (s.qIdx + 1).toNat < s.qLen.toNat then { u with qIdx := s.qIdx + 1 }.seqNext
      else { u with qIdx := 0 }.ctrlUpdate := by
  have pointer : u.qIdx = s.qIdx := by rw [h.frame]
  have length : u.qLen = s.qLen := by rw [h.frame]
  unfold State.adcAdvance
  rw [pointer, length]

/-- Settles O46: the guards of R225; then a sample either traps, or leaves the machine running and moves the
queue on. -/
theorem conversionComplete : Obligations.ConversionComplete := by
  intro tag raw s hraw u
  rw [exec_evAdc hraw, State.evAdc]
  congr 1
  by_cases halted : s.fatal = true
  · rw [if_pos halted, if_pos halted]
  rw [if_neg halted, if_neg halted]
  by_cases unexpected : s.adcBusy = false ∨ tag ≠ s.qAt s.qIdx.toNat
  · rw [if_pos unexpected, if_pos unexpected]
    rfl
  rw [if_neg unexpected, if_neg unexpected]
  have hu : u = (State.chProc (chanOf tag) (muxStrip tag) raw { s with adcBusy := false }).state :=
    after_chProc_eq _ _ _ _
  rcases State.chProc_cases (chanOf tag) (muxStrip tag) raw { s with adcBusy := false } with
    ⟨v, taken, hproc⟩ | hproc <;> rw [hproc] at hu ⊢
  · have running : ¬v.fatal = true := by rwa [taken.frame]
    rw [hu, Handled.state, if_neg running, after_seqNext, after_ctrlUpdate]
    exact taken.adcAdvance
  · rw [hu]
    rfl

/-! The control update (R228) -/

/-- An update under a guard is the update by a guarded function. -/
theorem State.updChan_ite (s : State) (c : Chan) (f : Channel → Channel) (p : Prop) [Decidable p] :
    (if p then s.updChan c f else s) = s.updChan c fun ch => if p then f ch else ch := by
  split
  · rfl
  · exact (s.updChan_id c).symm

/-- R228: a channel's turn, line by line, is one function of the channel. -/
theorem updateTurn_eq (c : Chan) {s : State} (htick : s.cfg.idleTickMs < 2 ^ 32) :
    updateTurn c s = s.updChan c (Channel.update s.cfg s.tips) := by
  have tick : (BitVec.ofNat 32 s.cfg.idleTickMs).toNat = s.cfg.idleTickMs := Nat.mod_eq_of_lt htick
  unfold updateTurn
  dsimp only
  rw [after_chIdle, tick, after_chSetst, tipSensed_eq, State.updChan_ite]
  simp only [after_measUpd, after_chUpddrive, State.updChan_updChan, State.chan_updChan, State.updChan_cfg,
    State.updChan_tips]
  exact State.updChan_congr s c rfl

/-- Settles O47: channel 0's turn leaves the parameters and the pool that channel 1's turn reads. -/
theorem controlUpdate : Obligations.ControlUpdate := by
  intro s htick
  rw [updateTurn_eq .ch0 htick, updateTurn_eq .ch1 (by rwa [State.updChan_cfg])]
  rfl

/-! The scheduler commands (R235 to R239) -/

/-- R236: the body of CTL.DISABLE, line by line. -/
theorem State.disable_turn (s : State) :
    after (.chSetst .ch1 s.ch1.offTarget) (after (.chSetst .ch0 s.ch0.offTarget) { s with ctlEnabled := false })
      = s.disable := rfl

/-- Settles O49: each command behind the test for a halted machine. -/
theorem schedulerCommands : Obligations.SchedulerCommands := by
  intro s offTarget disabled halted
  have hdisabled : disabled = s.disable := by
    rw [← State.disable_turn, Channel.offTarget_eq, Channel.offTarget_eq]
  rw [hdisabled]
  exact ⟨rfl, rfl, rfl, rfl⟩

end Sys2Proof.Machine

/-! # The tip pool's commands and the register file, as their rules print them (R253 to R255, R270, R271) -/

namespace Sys2Proof.Machine

/-! The pool's terms (R250, R254) -/

/-- R250: a slot is free when it bears no name. -/
theorem TipRecord.allocated_eq_false {r : TipRecord} : r.allocated = false ↔ r.name = 0xFFFF := bne_eq_false_iff_eq

/-- R250: the search for a free slot looks at the names. -/
theorem notAllocated_eq : (fun r : TipRecord => !r.allocated) = fun r => r.name == 0xFFFF :=
  funext fun r => Bool.not_not (r.name == freeEntry)

theorem Channel.usesSlot_iff {ch : Channel} {i : Nat} :
    ch.usesSlot i = true ↔ ch.tip ≠ 0xFF ∧ ch.tip.toNat = i := by
  unfold Channel.usesSlot
  rw [Bool.and_eq_true, bne_iff_ne, beq_iff_eq]
  rfl

theorem State.slotInUse_iff {s : State} {i : Nat} : s.slotInUse i = true ↔
    (s.ch0.tip ≠ 0xFF ∧ s.ch0.tip.toNat = i) ∨ (s.ch1.tip ≠ 0xFF ∧ s.ch1.tip.toNat = i) := by
  unfold State.slotInUse
  rw [Bool.or_eq_true, Channel.usesSlot_iff, Channel.usesSlot_iff]

/-- Settles O56: the guards in their order; the slot that bears the name, else the lowest free one. -/
theorem tipPoolCommands : Obligations.TipPoolCommands := by
  refine ⟨fun n s => ?_, fun slot s => ?_, fun n s => ?_⟩
  · intro iron
    change Host.Outcome.next (s.hostCommand _) = _
    rw [State.hostCommand_eq]
    dsimp only
    cases hname : s.tips.findIdx? fun r => r.name == n with
    | some i =>
      rw [allocTip_named hname]
      rfl
    | none =>
      cases hfree : s.tips.findIdx? fun r => r.name == 0xFFFF with
      | some i =>
        rw [allocTip_fresh hname (notAllocated_eq ▸ hfree)]
        rfl
      | none =>
        rw [allocTip_full hname (notAllocated_eq ▸ hfree)]
  · intro i uses forget
    change Host.Outcome.next (s.hostCommand _) = _
    rw [State.hostCommand_eq]
    simp only [TipRecord.allocated_eq_false, State.slotInUse_iff]
    rfl
  · change Host.Outcome.next (s.hostCommand _) = _
    rw [State.hostCommand_eq]
    unfold lowestSlot
    cases s.tips.findIdx? fun r => r.name == n <;> rfl

/-! The address map (R51 to R53, R76) -/

/-- R52: the channel blocks end at offset 0x18. -/
theorem chRegAt_unpopulated {o : Nat} (h : 0x19 ≤ o) : chRegAt o = none := by
  obtain ⟨k, rfl⟩ := Nat.exists_eq_add_of_le' h
  rfl

/-- R53: the last four offsets of a record are no registers. -/
theorem tipRegAt_unpopulated {o : Nat} (h : 0xC ≤ o) : tipRegAt o = none := by
  obtain ⟨k, rfl⟩ := Nat.exists_eq_add_of_le' h
  rfl

theorem chRegAt_lt {o : Nat} {r : ChReg} (h : chRegAt o = some r) : o < 0x19 := by
  by_contra high
  rw [chRegAt_unpopulated (Nat.le_of_not_lt high)] at h
  cases h

theorem tipRegAt_lt {o : Nat} {f : TipReg} (h : tipRegAt o = some f) : o < 0xC := by
  by_contra high
  rw [tipRegAt_unpopulated (Nat.le_of_not_lt high)] at h
  cases h

/-- R51: the queue window. -/
theorem globalRegAt_window {n : Nat} (h : 0x10 ≤ n) (h' : n < 0x18) : globalRegAt n = some (.seqQ (n - 0x10)) := by
  interval_cases n <;> rfl

/-- R51, R76: the global addresses that are no register. -/
theorem globalRegAt_unpopulated {n : Nat} (h : 6 ≤ n) (window : ¬ (0x10 ≤ n ∧ n < 0x18)) :
    globalRegAt n = none := by
  obtain ⟨k, rfl⟩ := Nat.exists_eq_add_of_le' h
  exact if_neg window

/-- `B(c)` (R52). -/
def chanBase : Chan → BitVec 16
  | .ch0 => 0x0100
  | .ch1 => 0x0200

theorem toNat_chanBase_add (c : Chan) {o : BitVec 16} (h : o.toNat < 0x100) :
    (chanBase c + o).toNat = (chanBase c).toNat + o.toNat := by
  have base : (chanBase c).toNat ≤ 0x200 := by cases c <;> decide
  rw [BitVec.toNat_add, Nat.mod_eq_of_lt (by omega)]

section AddressMap

variable (cfg : Config) {a : BitVec 16}

theorem regAt_global (h : a.toNat < 0x100) : regAt cfg a = globalRegAt a.toNat := if_pos h

theorem regAt_ch0 (h : 0x100 ≤ a.toNat) (h' : a.toNat < 0x200) :
    regAt cfg a = (chRegAt (a.toNat - 0x100)).map (.chan .ch0) := by
  unfold regAt
  dsimp only
  rw [if_neg (by omega), if_pos h']

theorem regAt_ch1 (h : 0x200 ≤ a.toNat) (h' : a.toNat < 0x300) :
    regAt cfg a = (chRegAt (a.toNat - 0x200)).map (.chan .ch1) := by
  unfold regAt
  dsimp only
  rw [if_neg (by omega), if_neg (by omega), if_pos h']

theorem regAt_chan (c : Chan) {o : BitVec 16} (h : o.toNat < 0x100) :
    regAt cfg (chanBase c + o) = (chRegAt o.toNat).map (.chan c) := by
  have sum := toNat_chanBase_add c h
  cases c with
  | ch0 =>
    change _ = 0x100 + o.toNat at sum
    rw [regAt_ch0 cfg (by omega) (by omega), sum, Nat.add_sub_cancel_left]
  | ch1 =>
    change _ = 0x200 + o.toNat at sum
    rw [regAt_ch1 cfg (by omega) (by omega), sum, Nat.add_sub_cancel_left]

theorem regAt_gap (h : 0x300 ≤ a.toNat) (h' : a.toNat < 0x400) : regAt cfg a = none := by
  unfold regAt
  dsimp only
  rw [if_neg (by omega), if_neg (by omega), if_neg (by omega), if_pos h']

/-- R76: the addresses below the pool that are no register. -/
theorem regAt_unpopulated (h : (0x06 ≤ a.toNat ∧ a.toNat ≤ 0x0F) ∨ (0x18 ≤ a.toNat ∧ a.toNat ≤ 0xFF)
    ∨ (0x119 ≤ a.toNat ∧ a.toNat ≤ 0x1FF) ∨ (0x219 ≤ a.toNat ∧ a.toNat ≤ 0x3FF)) : regAt cfg a = none := by
  by_cases global : a.toNat < 0x100
  · exact (regAt_global cfg global).trans (globalRegAt_unpopulated (by omega) (by omega))
  by_cases ch0 : a.toNat < 0x200
  · rw [regAt_ch0 cfg (by omega) ch0, chRegAt_unpopulated (by omega)]
    rfl
  by_cases ch1 : a.toNat < 0x300
  · rw [regAt_ch1 cfg (by omega) ch1, chRegAt_unpopulated (by omega)]
    rfl
  · exact regAt_gap cfg (by omega) (by omega)

theorem regAt_pool (h : 0x400 ≤ a.toNat) : regAt cfg a =
    if (a.toNat - 0x400) / 0x10 < cfg.numTipSettings then
      (tipRegAt (a.toNat % 0x10)).map (.tip ((a.toNat - 0x400) / 0x10))
    else none := by
  have offset : (a.toNat - 0x400) % 0x10 = a.toNat % 0x10 := by omega
  unfold regAt
  dsimp only
  rw [if_neg (by omega), if_neg (by omega), if_neg (by omega), if_neg (by omega), offset]

end AddressMap

/-- R53: the address of offset `o` in the record of slot `i`. -/
theorem regAt_record {cfg : Config} (hslots : cfg.numTipSettings ≤ 64) {i o : Nat} (hi : i < cfg.numTipSettings)
    (ho : o < 0x10) :
    regAt cfg (BitVec.ofNat 16 (0x400 + 0x10 * i + o)) = (tipRegAt o).map (.tip i) := by
  have address : (BitVec.ofNat 16 (0x400 + 0x10 * i + o)).toNat = 0x400 + 0x10 * i + o :=
    Nat.mod_eq_of_lt (by omega)
  have slot : (0x400 + 0x10 * i + o - 0x400) / 0x10 = i := by omega
  have offset : (0x400 + 0x10 * i + o) % 0x10 = o := by omega
  rw [regAt_pool cfg (by omega), address, slot, offset, if_pos hi]

/-! REG.RD (R270) -/

theorem ChReg.access_ne_wo (r : ChReg) : r.access ≠ .wo := by cases r <;> nofun

theorem Reg.access_wo {r : Reg} (h : r.access = .wo) : r = .irqClear := by
  cases r with
  | irqClear => rfl
  | chan c r => exact absurd h r.access_ne_wo
  | _ => cases h

theorem exec_regRd_unpopulated {a : BitVec 16} {s : State} (h : regAt s.cfg a = none) :
    exec (.regRd a) s = .next (s.reject .addr) := by
  change execRegRd a s = _
  rw [execRegRd, h]

theorem exec_regRd_reads {a : BitVec 16} {s : State} {r : Reg} (h : regAt s.cfg a = some r)
    (readable : r ≠ .irqClear) : exec (.regRd a) s = .next (s.accept (s.regRead r)) := by
  change execRegRd a s = _
  rw [execRegRd, h]
  exact if_neg fun wo => readable (Reg.access_wo wo)

theorem exec_regRd_global {a : BitVec 16} {s : State} (r : Reg) (ha : a.toNat < 0x100)
    (h : globalRegAt a.toNat = some r) (readable : r ≠ .irqClear) :
    exec (.regRd a) s = .next (s.accept (s.regRead r)) :=
  exec_regRd_reads ((regAt_global s.cfg ha).trans h) readable

theorem exec_regRd_chan {c : Chan} {o : BitVec 16} (s : State) (r : ChReg) (h : chRegAt o.toNat = some r) :
    exec (.regRd (chanBase c + o)) s = .next (s.accept (r.read s.cfg (s.chan c))) := by
  have offset := chRegAt_lt h
  exact exec_regRd_reads (r := .chan c r) (by rw [regAt_chan s.cfg c (by omega), h]; rfl) nofun

theorem exec_regRd_record {s : State} (hslots : s.cfg.numTipSettings ≤ 64) {i o : Nat}
    (hi : i < s.cfg.numTipSettings) (f : TipReg) (h : tipRegAt o = some f) :
    exec (.regRd (BitVec.ofNat 16 (0x400 + 0x10 * i + o))) s = .next (s.accept (f.read (s.tip i))) := by
  have offset := tipRegAt_lt h
  exact exec_regRd_reads (r := .tip i f) (by rw [regAt_record hslots hi (by omega), h]; rfl) nofun

/-! The fields of a packed word (R51, R52) -/

/-- A field of a packed word holds `x`. -/
theorem natWord_extractLsb' {n k w : Nat} {x : BitVec w} (hk : k + w ≤ 32) (h : n / 2 ^ k % 2 ^ w = x.toNat) :
    (natWord n).extractLsb' k w = x := by
  apply BitVec.eq_of_toNat_eq
  have split : 2 ^ 32 = 2 ^ k * 2 ^ (32 - k) := by rw [← pow_add, Nat.add_sub_cancel' (by omega)]
  rw [natWord, BitVec.extractLsb'_toNat, BitVec.toNat_ofNat, Nat.shiftRight_eq_div_pow, split,
    Nat.mod_mul_right_div_self, Nat.mod_mod_of_dvd _ (pow_dvd_pow 2 (by omega)), h]

/-- A field of a packed word holds the number `y`, as far as it has bits for it. -/
theorem natWord_field {n k w y : Nat} (hk : k + w ≤ 32) (h : n / 2 ^ k % 2 ^ w = y % 2 ^ w) :
    (natWord n).extractLsb' k w = BitVec.ofNat w y :=
  natWord_extractLsb' hk (h.trans (BitVec.toNat_ofNat y w).symm)

/-- A bit of a packed word holds `b`. -/
theorem natWord_getLsbD {n k : Nat} {b : Bool} (hk : k < 32) (h : n / 2 ^ k % 2 = bit b) :
    (natWord n).getLsbD k = b := by
  rw [natWord, BitVec.getLsbD_ofNat, decide_eq_true hk, Bool.true_and, Nat.testBit_eq_decide_div_mod_eq, h]
  cases b <;> rfl

theorem bit_le_one (b : Bool) : bit b ≤ 1 := by cases b <;> decide

theorem fatalCodeNum_le (e : Option FatalCause) : fatalCodeNum e ≤ 3 := by
  rcases e with - | e
  · decide
  · cases e <;> decide

theorem cmdCodeNum_le (e : Option RejectCode) : cmdCodeNum e ≤ 12 := by
  rcases e with - | e
  · decide
  · cases e <;> decide

theorem ChState.code_le (x : ChState) : x.code ≤ 6 := by cases x <;> decide

theorem ironCode_le (i : Iron) : ironCode i ≤ 5 := by cases i <;> decide

/-! REG.RD of the global registers and of the tip records (R51, R53) -/

theorem State.regRead_seqQ (s : State) {i : Nat} (h : i < 8) : s.regRead (.seqQ i) = s.q[i].setWidth 32 := by
  change zext (s.qAt i) = _
  simp [State.qAt, zext, h]

/-- R51: the bits of `CTL_STATUS`. -/
theorem State.ctlStatus_fields (s : State) :
    let v := s.ctlStatus
    v.getLsbD 0 = s.ctlEnabled ∧ v.getLsbD 1 = s.fatal
      ∧ v.extractLsb' 2 3 = BitVec.ofNat 3 (fatalCodeNum s.fatalCode)
      ∧ v.getLsbD 5 = s.overrun ∧ v.getLsbD 6 = s.timerArmed ∧ v.getLsbD 7 = s.adcBusy
      ∧ v.getLsbD 8 = s.refreshReq ∧ v.getLsbD 9 = s.logReq ∧ v.getLsbD 10 = s.cmdErr
      ∧ v.extractLsb' 11 4 = BitVec.ofNat 4 (cmdCodeNum s.cmdCode) ∧ v.extractLsb' 15 17 = BitVec.ofNat 17 0 := by
  have b0 := bit_le_one s.ctlEnabled
  have b1 := bit_le_one s.fatal
  have b2 := fatalCodeNum_le s.fatalCode
  have b5 := bit_le_one s.overrun
  have b6 := bit_le_one s.timerArmed
  have b7 := bit_le_one s.adcBusy
  have b8 := bit_le_one s.refreshReq
  have b9 := bit_le_one s.logReq
  have b10 := bit_le_one s.cmdErr
  have b11 := cmdCodeNum_le s.cmdCode
  refine ⟨natWord_getLsbD (by decide) ?_, natWord_getLsbD (by decide) ?_, natWord_field (by decide) ?_,
    natWord_getLsbD (by decide) ?_, natWord_getLsbD (by decide) ?_, natWord_getLsbD (by decide) ?_,
    natWord_getLsbD (by decide) ?_, natWord_getLsbD (by decide) ?_, natWord_getLsbD (by decide) ?_,
    natWord_field (by decide) ?_, natWord_field (by decide) ?_⟩ <;> omega

/-- R51: the two fields of `SEQ_PTR`. -/
theorem State.seqPtr_fields (s : State) :
    let v := s.seqPtr
    v.extractLsb' 0 4 = s.qIdx ∧ v.extractLsb' 4 4 = BitVec.ofNat 4 0 ∧ v.extractLsb' 8 4 = s.qLen
      ∧ v.extractLsb' 12 20 = BitVec.ofNat 20 0 := by
  have index := s.qIdx.isLt
  have length := s.qLen.isLt
  refine ⟨natWord_extractLsb' (by decide) ?_, natWord_field (by decide) ?_, natWord_extractLsb' (by decide) ?_,
    natWord_field (by decide) ?_⟩ <;> omega

/-- Settles O57: a register's content is its column of R51 or R53; an address the map leaves out is rejected. -/
theorem globalAndTipRegistersRead : Obligations.GlobalAndTipRegistersRead := by
  constructor
  · intro s
    refine ⟨⟨s.ctlStatus, exec_regRd_global .ctlStatus (by decide) rfl nofun, ?_⟩,
      ⟨s.seqPtr, exec_regRd_global .seqPtr (by decide) rfl nofun, s.seqPtr_fields⟩,
      exec_regRd_global .refreshCnt (by decide) rfl nofun, exec_regRd_global .reportCnt (by decide) rfl nofun,
      exec_regRd_global .chipTemp (by decide) rfl nofun, rfl, fun i hi => ?_, fun a low high window => ?_⟩
    · obtain ⟨b0, b1, fatal, b5, b6, b7, b8, b9, b10, cmd, rest⟩ := s.ctlStatus_fields
      refine ⟨b0, b1, fatal.trans ?_, b5, b6, b7, b8, b9, b10, cmd.trans ?_, rest⟩
      · cases s.fatalCode with
        | none => rfl
        | some e => cases e <;> rfl
      · cases s.cmdCode with
        | none => rfl
        | some e => cases e <;> rfl
    · have address : (0x0010 + BitVec.ofNat 16 i).toNat = 0x10 + i := by
        rw [BitVec.toNat_add, BitVec.toNat_ofNat]
        change (0x10 + i % 2 ^ 16) % 2 ^ 16 = _
        omega
      rw [← s.regRead_seqQ hi]
      refine exec_regRd_global (.seqQ i) (by omega) ?_ nofun
      rw [address, globalRegAt_window (by omega) (by omega), Nat.add_sub_cancel_left]
    · exact exec_regRd_unpopulated
        ((regAt_global s.cfg high).trans (globalRegAt_unpopulated low window))
  · refine fun s hslots => ⟨fun i hi => ?_, fun a ha outside => exec_regRd_unpopulated ?_⟩
    · intro r reads
      have read {o : Nat} (f : TipReg) (h : tipRegAt o = some f) : reads o (f.read r) :=
        exec_regRd_record hslots hi f h
      exact ⟨read .name rfl, read .flags rfl, read (.calT .i0) rfl, read (.calM .i0) rfl, read (.calT .i1) rfl,
        read (.calM .i1) rfl, read (.calT .i2) rfl, read (.calM .i2) rfl, read (.gain .j0) rfl,
        read (.gain .j1) rfl, read (.gain .j2) rfl, read (.gain .j3) rfl⟩
    · by_cases gap : a.toNat < 0x400
      · exact regAt_gap s.cfg ha gap
      rw [regAt_pool s.cfg (Nat.le_of_not_lt gap)]
      split_ifs with slot
      · rw [tipRegAt_unpopulated (by omega)]
        rfl
      · rfl

/-! REG.RD of the channel registers (R52) -/

/-- R52: the fields of `CH_STATUS`. -/
theorem Channel.status_fields (ch : Channel) :
    let v := ch.status
    v.extractLsb' 0 3 = BitVec.ofNat 3 ch.state.code ∧ v.getLsbD 3 = false
      ∧ v.extractLsb' 4 3 = BitVec.ofNat 3 (ironCode ch.iron) ∧ v.getLsbD 7 = false
      ∧ v.getLsbD 8 = ch.tipPresent ∧ v.getLsbD 9 = ch.led ∧ v.extractLsb' 10 2 = ch.drive
      ∧ v.extractLsb' 12 2 = ch.voltSel ∧ v.getLsbD 14 = ch.tempModified ∧ v.getLsbD 15 = ch.ctlEn
      ∧ v.getLsbD 16 = ch.on ∧ v.extractLsb' 17 15 = BitVec.ofNat 15 0 := by
  have state := ch.state.code_le
  have iron := ironCode_le ch.iron
  have present := bit_le_one ch.tipPresent
  have led := bit_le_one ch.led
  have drive := ch.drive.isLt
  have supply := ch.voltSel.isLt
  have modified := bit_le_one ch.tempModified
  have enabled := bit_le_one ch.ctlEn
  have on := bit_le_one ch.on
  have clear : bit false = 0 := rfl
  refine ⟨natWord_field (by decide) ?_, natWord_getLsbD (by decide) ?_, natWord_field (by decide) ?_,
    natWord_getLsbD (by decide) ?_, natWord_getLsbD (by decide) ?_, natWord_getLsbD (by decide) ?_,
    natWord_extractLsb' (by decide) ?_, natWord_extractLsb' (by decide) ?_, natWord_getLsbD (by decide) ?_,
    natWord_getLsbD (by decide) ?_, natWord_getLsbD (by decide) ?_, natWord_field (by decide) ?_⟩ <;> omega

/-- R52: the fields of `DUTY`. -/
theorem Channel.dutyWord_fields (cfg : Config) (ch : Channel) :
    let v := ch.dutyWord cfg
    v.extractLsb' 0 7 = ch.duty ∧ v.extractLsb' 8 7 = ch.acc
      ∧ v.extractLsb' 16 7 = BitVec.ofNat 7 (cfg.dccUpper.get ch.iron)
      ∧ v.getLsbD 7 = false ∧ v.getLsbD 15 = false ∧ v.extractLsb' 23 9 = BitVec.ofNat 9 0 := by
  have duty := ch.duty.isLt
  have acc := ch.acc.isLt
  have clear : bit false = 0 := rfl
  refine ⟨natWord_extractLsb' (by decide) ?_, natWord_extractLsb' (by decide) ?_, natWord_field (by decide) ?_,
    natWord_getLsbD (by decide) ?_, natWord_getLsbD (by decide) ?_, natWord_field (by decide) ?_⟩ <;> omega

/-- R35: the effective target, as a register word. -/
theorem Channel.zext_effTarget (ch : Channel) : zext ch.effTarget =
    if ch.state = .setback then BitVec.ofNat 32 (min ch.setbackTemp.toNat ch.userTemp.toNat)
    else ch.userTemp.setWidth 32 := by
  rw [zext, ← BitVec.ofNat_toNat, Channel.toNat_effTarget, ← BitVec.ofNat_toNat]
  split_ifs <;> rfl

/-- R35: `TempModified`. -/
theorem Channel.tempModified_eq (ch : Channel) :
    ch.tempModified = decide (ch.userTemp ≠ ch.presets.get ch.preset) := by
  unfold Channel.tempModified
  by_cases same : ch.userTemp = ch.presets.get ch.preset <;> simp [same]

/-- Settles O58: a register's content is its column of R52; an offset past the last one is rejected. -/
theorem channelRegistersRead : Obligations.ChannelRegistersRead := by
  intro c s ch base reads
  have hbase : base = chanBase c := by cases c <;> rfl
  have read {o : BitVec 16} (r : ChReg) (h : chRegAt o.toNat = some r) : reads o (r.read s.cfg ch) := by
    dsimp only [reads]
    rw [hbase]
    exact exec_regRd_chan s r h
  have readAs {o : BitVec 16} {v : BitVec 32} (r : ChReg) (h : chRegAt o.toNat = some r)
      (hv : r.read s.cfg ch = v) : reads o v := hv ▸ read r h
  refine ⟨⟨ch.status, read .status rfl, ?_⟩, read .userTemp rfl, readAs .targetTemp rfl ch.zext_effTarget,
    read .curTemp rfl, read .idleMs rfl, readAs .presetIdx rfl ?_, read .tipRef rfl, read .power rfl,
    ⟨ch.dutyWord s.cfg, read .duty rfl, ch.dutyWord_fields s.cfg⟩, read .ctlOut rfl, read .integralLo rfl,
    read .integralHi rfl, read .avgA rfl, read .avgB rfl, read .avgC rfl, read .idOhms rfl,
    read (.preset .i0) rfl, read (.preset .i1) rfl, read (.preset .i2) rfl, read .setbackTemp rfl,
    read .setbackTime rfl, read .safetyOffTime rfl, read .selectedTip rfl, read .fixedDuty rfl,
    read .identCnt rfl, fun o low high => ?_⟩
  · obtain ⟨state, b3, iron, b7, present, led, drive, supply, modified, enabled, on, rest⟩ := ch.status_fields
    refine ⟨state.trans ?_, b3, iron.trans ?_, b7, present.trans ?_, led, drive, supply,
      modified.trans ch.tempModified_eq, enabled, on, rest⟩
    · cases ch.state <;> rfl
    · cases ch.iron <;> rfl
    · unfold Channel.tipPresent
      cases ch.iron <;> rfl
  · change natWord ch.preset.num = _
    cases ch.preset <;> rfl
  · rw [hbase]
    refine exec_regRd_unpopulated ?_
    rw [regAt_chan s.cfg c (by omega), chRegAt_unpopulated low]
    rfl

/-! The values a reference to a slot or a name takes (R52, R53) -/

/-- R52, R53: an index below a bound, or the value that names nothing. -/
theorem decide_lt_or_beq (v : RegWord) (bound : Nat) :
    (decide (v.toNat < bound) || v == 0xFFFF) = (decide (v.toNat < bound) || decide (v.toNat = 0xFFFF)) :=
  congrArg _ (decide_eq_decide.2 (BitVec.toNat_inj (x := v) (y := 0xFFFF)).symm)

/-- R53: the values a slot's name does not take. -/
theorem Reg.legal_name_eq_false {cfg : Config} {v : RegWord} {slot : Nat} :
    (Reg.tip slot .name).legal cfg v = false ↔ ¬ (v.toNat < cfg.numTipNames ∨ v.toNat = 0xFFFF) := by
  change (decide (v.toNat < cfg.numTipNames) || v == 0xFFFF) = false ↔ _
  rw [decide_lt_or_beq, ← Bool.decide_or, decide_eq_false_iff_not]

/-! REG.WR (R271) -/

section Writes

variable {a : BitVec 16} (v : BitVec 32) {s : State} {r : Reg}

theorem exec_regWr_unpopulated (h : regAt s.cfg a = none) :
    exec (.regWr a v) s = .next (s.reject (if s.fatal = true then .halted else .addr)) := by
  change Host.Outcome.next (s.hostCommand _) = _
  rw [State.hostCommand_eq, h, apply_ite s.reject]

/-- R271: the rejections in their order, then the write. -/
theorem exec_regWr_register (h : regAt s.cfg a = some r) : exec (.regWr a v) s =
    .next (if s.fatal = true then s.reject .halted
      else if r.access = .ro then s.reject .ro
      else if r.legal s.cfg v = false then s.reject .range
      else if s.nameInUse r = true then s.reject .inUse
      else (s.regWrite v r).accept 0) := by
  change Host.Outcome.next (s.hostCommand _) = _
  rw [State.hostCommand_eq, h]

theorem exec_regWr_readOnly (h : regAt s.cfg a = some r) (ro : r.access = .ro) :
    exec (.regWr a v) s = .next (s.reject (if s.fatal = true then .halted else .ro)) := by
  rw [exec_regWr_register v h, if_pos ro, apply_ite s.reject]

/-- R271: a writable register that is not the name of a slot in use takes its legal values. -/
theorem exec_regWr_writes (h : regAt s.cfg a = some r) (writable : r.access ≠ .ro)
    (unused : s.nameInUse r = false) : exec (.regWr a v) s =
    .next (if s.fatal = true then s.reject .halted
      else if r.legal s.cfg v = true then (s.regWrite v r).accept 0 else s.reject .range) := by
  rw [exec_regWr_register v h, if_neg writable, unused]
  cases r.legal s.cfg v <;> rfl

/-- R271: `E_INUSE` protects the name alone. -/
theorem State.nameInUse_tip (s : State) {slot : Nat} {f : TipReg} (h : f ≠ .name) :
    s.nameInUse (.tip slot f) = false := by
  cases f with
  | name => exact absurd rfl h
  | flags | calT | calM | gain => rfl

/-- R271: the name of a slot takes its legal values while no channel uses the slot. -/
theorem exec_regWr_name {slot : Nat} (h : regAt s.cfg a = some (.tip slot .name)) : exec (.regWr a v) s =
    .next (if s.fatal = true then s.reject .halted
      else if ¬ (v.toNat < s.cfg.numTipNames ∨ v.toNat = 0xFFFF) then s.reject .range
      else if (s.ch0.tip ≠ 0xFF ∧ s.ch0.tip.toNat = slot) ∨ (s.ch1.tip ≠ 0xFF ∧ s.ch1.tip.toNat = slot) then
        s.reject .inUse
      else (s.setTip slot { s.tip slot with name := v.setWidth 16 }).accept 0) := by
  rw [exec_regWr_register v h, if_neg (show (Reg.tip slot .name).access ≠ .ro from nofun)]
  simp only [Reg.legal_name_eq_false, State.nameInUse, State.slotInUse_iff]
  rfl

end Writes

/-! Which registers are read-only (R51, R52, R54) -/

theorem globalRegAt_readOnly {n : Nat} (h : n ≤ 4 ∨ (0x10 ≤ n ∧ n ≤ 0x17)) :
    ∃ r, globalRegAt n = some r ∧ r.access = .ro := by
  rcases h with low | ⟨low, high⟩
  · interval_cases n <;> exact ⟨_, rfl, rfl⟩
  · exact ⟨_, globalRegAt_window low (by omega), rfl⟩

theorem chRegAt_readOnly {o : Nat} (h : o ≤ 0x0F ∨ o = 0x17 ∨ o = 0x18) :
    ∃ r, chRegAt o = some r ∧ r.access = .ro := by
  rcases h with low | rfl | rfl
  · interval_cases o <;> exact ⟨_, rfl, rfl⟩
  · exact ⟨_, rfl, rfl⟩
  · exact ⟨_, rfl, rfl⟩

/-! What IRQ_CLEAR does (R51) -/

/-- R271: a flag stays set unless its bit is written. -/
theorem State.irqClear_eq (v : RegWord) (s : State) : s.irqClear v =
    { s with
      overrun := if v.getLsbD 5 then false else s.overrun
      refreshReq := if v.getLsbD 8 then false else s.refreshReq
      logReq := if v.getLsbD 9 then false else s.logReq
      cmdErr := if v.getLsbD 10 then false else s.cmdErr
      cmdCode := if v.getLsbD 10 then none else s.cmdCode } := by
  have cleared (flag written : Bool) : (flag && !written) = if written then false else flag := by
    cases written <;> simp
  unfold State.irqClear
  simp only [cleared]

/-- Settles O59: each address is looked up in the map; the register found says what is legal and written. -/
theorem registerWrite : Obligations.RegisterWrite := by
  intro v s n rejects writes
  have unpopulated {a : BitVec 16} (h : regAt s.cfg a = none) : rejects a .addr := exec_regWr_unpopulated v h
  have written {a : BitVec 16} (r : Reg) (h : regAt s.cfg a = some r) (writable : r.access ≠ .ro)
      (unused : s.nameInUse r = false) : writes a (r.legal s.cfg v) (s.regWrite v r) :=
    exec_regWr_writes v h writable unused
  refine ⟨fun a ha => ?_, ?_, fun a ha => unpopulated ?_, fun c => ?_, fun a ha => ?_⟩
  · obtain ⟨r, hr, ro⟩ := globalRegAt_readOnly ha
    exact exec_regWr_readOnly v ((regAt_global s.cfg (by omega)).trans hr) ro
  · rw [← State.irqClear_eq]
    exact written .irqClear rfl nofun rfl
  · exact regAt_unpopulated s.cfg ha
  · intro ch base put
    have hbase : base = chanBase c := by cases c <;> rfl
    have at_offset {o : BitVec 16} {r : ChReg} (h : chRegAt o.toNat = some r) :
        regAt s.cfg (base + o) = some (.chan c r) := by
      have offset := chRegAt_lt h
      rw [hbase, regAt_chan s.cfg c (by omega), h]
      rfl
    have field {o : BitVec 16} (r : ChReg) (h : chRegAt o.toNat = some r) (writable : r.access ≠ .ro) :
        put o ((Reg.chan c r).legal s.cfg v) (r.write v ch) := written (.chan c r) (at_offset h) writable rfl
    refine ⟨fun o ho => ?_, field (.preset .i0) rfl nofun, field (.preset .i1) rfl nofun,
      field (.preset .i2) rfl nofun, field .setbackTemp rfl nofun, field .setbackTime rfl nofun,
      field .safetyOffTime rfl nofun, ?_⟩
    · obtain ⟨r, hr, ro⟩ := chRegAt_readOnly
        (ho.imp_right (Or.imp (congrArg BitVec.toNat) (congrArg BitVec.toNat)))
      exact exec_regWr_readOnly v (at_offset hr) ro
    · rw [← decide_lt_or_beq]
      exact field .selectedTip rfl nofun
  · intro slot r put uses
    have lookup := regAt_pool s.cfg ha
    by_cases absent : s.cfg.numTipSettings ≤ slot
    · rw [if_neg (Nat.not_lt.2 absent)] at lookup
      rw [if_pos absent]
      exact unpopulated lookup
    rw [if_pos (Nat.lt_of_not_le absent)] at lookup
    rw [if_neg absent]
    have field (f : TipReg) (h : regAt s.cfg a = some (.tip slot f)) (unprotected : f ≠ .name) :
        put ((Reg.tip slot f).legal s.cfg v) (f.write v r) :=
      written (.tip slot f) h nofun (s.nameInUse_tip unprotected)
    generalize a.toNat % 0x10 = o at lookup ⊢
    match o with
    | 0x0 => exact exec_regWr_name v lookup
    | 0x1 => exact field .flags lookup nofun
    | 0x2 => exact field (.calT .i0) lookup nofun
    | 0x3 => exact field (.calM .i0) lookup nofun
    | 0x4 => exact field (.calT .i1) lookup nofun
    | 0x5 => exact field (.calM .i1) lookup nofun
    | 0x6 => exact field (.calT .i2) lookup nofun
    | 0x7 => exact field (.calM .i2) lookup nofun
    | 0x8 => exact field (.gain .j0) lookup nofun
    | 0x9 => exact field (.gain .j1) lookup nofun
    | 0xA => exact field (.gain .j2) lookup nofun
    | 0xB => exact field (.gain .j3) lookup nofun
    | o + 0xC => exact unpopulated lookup

/-! A write read back (R50, R270, R271) -/

/-- A legal reference fits its 16 bits. -/
theorem reference_lt {v : RegWord} {bound : Nat} (hbound : bound ≤ 65535)
    (h : (decide (v.toNat < bound) || v == 0xFFFF) = true) : v.toNat < 2 ^ 16 := by
  rw [decide_lt_or_beq, Bool.or_eq_true, decide_eq_true_eq, decide_eq_true_eq] at h
  omega

/-- R52: every channel register that takes a value answers it. -/
theorem ChReg.read_write {cfg : Config} (F : CfgFacts cfg) {c : Chan} {r : ChReg} {v : RegWord} (ch : Channel)
    (legal : (Reg.chan c r).legal cfg v = true) : r.read cfg (r.write v ch) = v := by
  have hslots := F.slots
  cases r with
  | preset i =>
    have range : v.toNat ≤ 32767 := of_decide_eq_true legal
    simp only [ChReg.read, ChReg.write, Triple.get_set, if_pos]
    exact zext_setWidth v (by omega)
  | setbackTemp =>
    have range : v.toNat ≤ 32767 := of_decide_eq_true legal
    exact zext_setWidth v (by omega)
  | setbackTime | safetyOffTime =>
    have range : v.toNat ≤ 65535 := of_decide_eq_true legal
    exact zext_setWidth v (by omega)
  | selectedTip => exact zext_setWidth v (reference_lt (by omega) legal)
  | _ => cases legal

/-- R53: every register of a tip record answers the value it took. -/
theorem TipReg.read_write {cfg : Config} (F : CfgFacts cfg) {slot : Nat} {f : TipReg} {v : RegWord} (r : TipRecord)
    (legal : (Reg.tip slot f).legal cfg v = true) : f.read (f.write v r) = v := by
  cases f with
  | name => exact zext_setWidth v (reference_lt F.names.2 legal)
  | flags =>
    have range : v.toNat ≤ 3 := of_decide_eq_true legal
    exact zext_setWidth v (by omega)
  | calT i =>
    have range : v.toNat ≤ 32767 := of_decide_eq_true legal
    simp only [TipReg.read, TipReg.write, Triple.get_set, if_pos]
    exact zext_setWidth v (by omega)
  | calM i => simp only [TipReg.read, TipReg.write, Triple.get_set, if_pos]
  | gain j => simp only [TipReg.read, TipReg.write, Quad.get_set, if_pos]

/-- R51 to R53, R98: no register shows the response. -/
@[simp] theorem State.regRead_accept (s : State) (v : RegWord) (r : Reg) : (s.accept v).regRead r = s.regRead r := by
  cases r with
  | chan c r => cases c <;> rfl
  | _ => rfl

/-- R270, R271: the register written holds the value, where the register exists and can be read. -/
theorem State.regRead_regWrite {s : State} (F : CfgFacts s.cfg) (pool : s.tips.length = s.cfg.numTipSettings)
    {a : BitVec 16} {r : Reg} {v : RegWord} (h : regAt s.cfg a = some r) (readable : r ≠ .irqClear)
    (legal : r.legal s.cfg v = true) : (s.regWrite v r).regRead r = v := by
  cases r with
  | irqClear => exact absurd rfl readable
  | chan c r =>
    change r.read (s.updChan c _).cfg ((s.updChan c _).chan c) = v
    rw [State.updChan_cfg, State.chan_updChan]
    exact ChReg.read_write F (s.chan c) legal
  | tip i f =>
    change f.read (tipAt (s.tips.set i _) i) = v
    rw [tipAt_set_same _ (pool ▸ regAt_tip h)]
    exact TipReg.read_write F (s.tip i) legal
  | _ => cases legal

/-- R271: what an accepted write has found and done. -/
theorem exec_regWr_accepted {a : BitVec 16} {v : BitVec 32} {s t : State} (h : exec (.regWr a v) s = .next t)
    (accepted : t.respOk = true) :
    ∃ r, regAt s.cfg a = some r ∧ r.legal s.cfg v = true ∧ t = (s.regWrite v r).accept 0 := by
  cases hr : regAt s.cfg a with
  | none =>
    rw [exec_regWr_unpopulated v hr] at h
    cases h
    cases accepted
  | some r =>
    rw [exec_regWr_register v hr] at h
    split_ifs at h with halted ro illegal inUse <;> cases h
    · cases accepted
    · cases accepted
    · cases accepted
    · cases accepted
    · exact ⟨r, rfl, Bool.eq_true_of_not_eq_false illegal, rfl⟩

/-- Settles O60: the write leaves the address map as it is, and the register holds the value. -/
theorem registerWriteThenRead : Obligations.RegisterWriteThenRead := by
  intro a v s t hcfg pool ha h accepted
  obtain ⟨r, hr, legal, rfl⟩ := exec_regWr_accepted h accepted
  have readable : r ≠ .irqClear := by
    rintro rfl
    exact ha (regAt_irqClear hr)
  have held := State.regRead_regWrite (configLegal_facts hcfg) (beq_iff_eq.1 pool) hr readable legal
  have found : regAt ((s.regWrite v r).accept 0).cfg a = some r := by
    rwa [State.accept_cfg, State.regWrite_cfg]
  rw [exec_regRd_reads found readable, State.regRead_accept, held]

end Sys2Proof.Machine

/-! # How a host command ends, and what a trap does to the machine (R281, R283, R284) -/

namespace Sys2Proof.Machine

/-! The codes of R281 and R284 -/

/-- `t` holds the trap and the rejection of `s`, each with its code. -/
structure SameCodes (s t : State) : Prop where
  fatal : t.fatal = s.fatal
  fatalCode : t.fatalCode = s.fatalCode
  cmdErr : t.cmdErr = s.cmdErr
  cmdCode : t.cmdCode = s.cmdCode

theorem SameCodes.setChan (s : State) (c : Chan) (x : Channel) : SameCodes s (s.setChan c x) :=
  ⟨State.setChan_fatal .., State.setChan_fatalCode .., State.setChan_cmdErr .., State.setChan_cmdCode ..⟩

/-- R271: `IRQ_CLEAR` is the only register through which a write reaches the codes. -/
theorem SameCodes.regWrite (s : State) (v : RegWord) {r : Reg} (h : r ≠ .irqClear) :
    SameCodes s (s.regWrite v r) := by
  cases r with
  | irqClear => exact absurd rfl h
  | chan c r => exact .setChan s c _
  | _ => exact ⟨rfl, rfl, rfl, rfl⟩

/-- What neither completes a conversion nor is a host command leaves the codes alone (R21). -/
theorem MachineWritten.sameCodes {i : Instr} {s t : State} (h : MachineWritten i s t) (adc : ¬ IsConversion i)
    (event : ¬ i.isHost = true) : SameCodes s t := by
  have untrapped : ¬ (IsConversion i ∨ IsTipChange i) := by
    rintro (conversion | ⟨c, n, rfl⟩)
    · exact adc conversion
    · exact event rfl
  refine ⟨?_, ?_, ?_, ?_⟩ <;> by_contra changed
  · exact untrapped (h.trap (.inl changed))
  · exact untrapped (h.trap (.inr changed))
  · exact event (h.answer (.inl changed))
  · exact event (h.answer (.inr (.inl changed)))

/-! The ways a host command ends -/

/-- How the host command `i` ends in a state `s` (R98, R203, R271, R284). -/
inductive CommandEnds (i : Instr) (s : State) : State → Prop where
  | accepted {u : State} (v : RegWord) (codes : SameCodes s u) : CommandEnds i s (u.accept v)
  | cleared (v : RegWord) (issued : i = .regWr 0x0005 v) : CommandEnds i s ((s.irqClear v).accept 0)
  | rejected (e : RejectCode) : CommandEnds i s (s.reject e)
  | tipMismatch (c : Chan) (slot : BitVec 32) (issued : i = .chChangetip c slot) :
      CommandEnds i s (s.raiseFatalInCommand .tipMismatch)

theorem CommandEnds.answered (i : Instr) (s : State) (v : RegWord) : CommandEnds i s (s.accept v) :=
  .accepted v ⟨rfl, rfl, rfl, rfl⟩

theorem CommandEnds.channelWritten (i : Instr) (s : State) (c : Chan) (x : Channel) (v : RegWord) :
    CommandEnds i s ((s.setChan c x).accept v) :=
  .accepted v (.setChan s c x)

theorem CommandEnds.poolWritten (i : Instr) (s : State) (tips : List TipRecord) (v : RegWord) :
    CommandEnds i s ({ s with tips := tips }.accept v) :=
  .accepted v ⟨rfl, rfl, rfl, rfl⟩

/-- R283: a halted machine rejects the command. -/
theorem CommandEnds.hostCommand {i : Instr} {s : State} {body : State → State} (h : CommandEnds i s (body s)) :
    CommandEnds i s (s.hostCommand body) :=
  State.hostCommand_induct (fun _ => .rejected .halted) (fun _ => h)

theorem execChSetstate_ends (c : Chan) (idx : BitVec 4) {s t : State} (h : execChSetstate c idx s = .next t) :
    CommandEnds (.chSetstate c idx) s t := by
  cases h
  refine .hostCommand ?_
  dsimp only
  split_ifs
  · exact .channelWritten ..
  · exact .rejected .disabled
  · exact .rejected .noIron
  · exact .rejected .noTip
  · exact .rejected .state
  · exact .channelWritten ..
  · exact .rejected .range

theorem execChChangetip_ends (c : Chan) (slot : BitVec 32) {s t : State} (h : execChChangetip c slot s = .next t) :
    CommandEnds (.chChangetip c slot) s t := by
  cases h
  refine .hostCommand ?_
  dsimp only
  repeat' split
  · exact .rejected .slot
  · exact .rejected .noIron
  · exact .tipMismatch c slot rfl
  · exact .channelWritten ..

theorem execChFixedpwr_ends (c : Chan) (d : BitVec 32) {s t : State} (h : execChFixedpwr c d s = .next t) :
    CommandEnds (.chFixedpwr c d) s t := by
  cases h
  refine .hostCommand ?_
  dsimp only
  split
  · exact .rejected .range
  split
  · exact .rejected .disabled
  split
  · exact .rejected .noIron
  split
  · exact .rejected .state
  · exact .channelWritten ..

/-- Everything REG.RD can do (R270): reject an address that cannot be read, or answer what stands there. -/
theorem exec_regRd_cases (a : BitVec 16) (s : State) :
    exec (.regRd a) s = .next (s.reject .addr) ∨ ∃ v, exec (.regRd a) s = .next (s.accept v) := by
  cases hr : regAt s.cfg a with
  | none => exact .inl (exec_regRd_unpopulated hr)
  | some r =>
    by_cases irq : r = .irqClear
    · subst irq
      refine .inl ?_
      change execRegRd a s = _
      rw [execRegRd, hr]
      rfl
    · exact .inr ⟨_, exec_regRd_reads hr irq⟩

theorem exec_regRd_ends {a : BitVec 16} {s t : State} (h : exec (.regRd a) s = .next t) :
    CommandEnds (.regRd a) s t := by
  rcases exec_regRd_cases a s with rejected | ⟨v, answered⟩
  · cases rejected.symm.trans h
    exact .rejected .addr
  · cases answered.symm.trans h
    exact .answered ..

theorem exec_regWr_ends {a : BitVec 16} {v : BitVec 32} {s t : State} (h : exec (.regWr a v) s = .next t) :
    CommandEnds (.regWr a v) s t := by
  cases hr : regAt s.cfg a with
  | none =>
    rw [exec_regWr_unpopulated v hr] at h
    cases h
    exact .rejected _
  | some r =>
    rw [exec_regWr_register v hr] at h
    cases h
    split_ifs
    · exact .rejected .halted
    · exact .rejected .ro
    · exact .rejected .range
    · exact .rejected .inUse
    by_cases irq : r = .irqClear
    · subst irq
      obtain rfl := regAt_irqClear hr
      exact .cleared v rfl
    · exact .accepted 0 (.regWrite s v irq)

/-- Every host command ends in one of these ways (R98, R284). -/
theorem exec_host_ends {i : Instr} {s t : State} (hi : i.isHost = true) (h : exec i s = .next t) :
    CommandEnds i s t := by
  cases i with
  | ctlEnable | ctlDisable | ctlChiptemp => cases h; exact .hostCommand (.accepted _ ⟨rfl, rfl, rfl, rfl⟩)
  | chGetstate | chGetcur | chGettgt | chGetpwr | chIsmod | calInst => cases h; exact .hostCommand (.answered ..)
  | chNextpreset | chInteract => cases h; exact .hostCommand (.channelWritten ..)
  | ctlToggle =>
    cases h
    refine .hostCommand ?_
    split <;> exact .accepted _ ⟨rfl, rfl, rfl, rfl⟩
  | chSettemp =>
    cases h
    refine .hostCommand ?_
    split
    · exact .rejected .range
    · exact .channelWritten ..
  | chSetstate c idx => exact execChSetstate_ends c idx h
  | chChangetip c slot => exact execChChangetip_ends c slot h
  | chFixedpwr c d => exact execChFixedpwr_ends c d h
  | calSave =>
    cases h
    refine .hostCommand ?_
    dsimp only
    repeat' split
    · exact .rejected .range
    · exact .rejected .noTip
    · exact .answered ..
    · exact .poolWritten ..
  | calSet =>
    cases h
    refine .hostCommand ?_
    dsimp only
    repeat' split
    · exact .rejected .range
    · exact .rejected .range
    · exact .rejected .noTip
    · exact .poolWritten ..
  | calGett | calGetm =>
    cases h
    refine .hostCommand ?_
    repeat' split
    · exact .rejected .range
    · exact .rejected .noTip
    · exact .answered ..
  | tipAlloc =>
    cases h
    refine .hostCommand ?_
    dsimp only
    repeat' split
    · exact .rejected .range
    · exact .rejected .full
    · exact .poolWritten ..
  | tipFree =>
    cases h
    refine .hostCommand ?_
    dsimp only
    repeat' split
    · exact .rejected .slot
    · exact .rejected .inUse
    · exact .accepted 0 ⟨rfl, rfl, rfl, rfl⟩
  | tipFind =>
    cases h
    refine .hostCommand ?_
    split
    · exact .rejected .range
    · exact .answered ..
  | regRd => exact exec_regRd_ends h
  | regWr => exact exec_regWr_ends h
  | _ => cases hi

/-- Settles O20: the ways a host command ends; of the accepted ones only `IRQ_CLEAR` reaches the codes. -/
theorem everyCommandAnswers : Obligations.EveryCommandAnswers := by
  intro i s t hi h
  cases exec_host_ends hi h with
  | accepted v codes => exact .inl ⟨rfl, fun _ => ⟨codes.cmdErr, codes.cmdCode⟩⟩
  | cleared v issued => exact .inl ⟨rfl, fun other => absurd issued (other v)⟩
  | rejected e => exact .inr (.inl ⟨e, rfl⟩)
  | tipMismatch c slot issued => exact .inr (.inr ⟨⟨c, slot, issued⟩, rfl⟩)

/-! The halted machine (R283) -/

/-- Settles O48: the guard of each event, and the one guard all host commands but REG.RD share. -/
theorem trapHaltsTheMachine : Obligations.TrapHaltsTheMachine := by
  refine ⟨fun _ _ => rfl, fun i s halted hi wf => ?_⟩
  cases i with
  | evRst => rfl
  | evZc | evTmr | evOc => exact congrArg Host.Outcome.next (if_pos halted)
  | evAdc tag raw =>
    have carried : raw.toNat ≤ s.cfg.adcFs := of_decide_eq_true wf
    exact (if_neg (Nat.not_lt.2 carried)).trans (congrArg Host.Outcome.next (if_pos halted))
  | regRd a => exact exec_regRd_cases a s
  | ctlEnable | ctlDisable | ctlToggle | ctlChiptemp | chSetstate | chSettemp | chNextpreset | chChangetip
  | chInteract | chFixedpwr | chGetstate | chGetcur | chGettgt | chGetpwr | chIsmod | calSave | calSet | calGett
  | calGetm | calInst | tipAlloc | tipFree | tipFind | regWr =>
    exact congrArg Host.Outcome.next (State.hostCommand_halted _ halted)
  | _ => cases hi

/-! Every step keeps the codes (R281, R284) -/

/-- A trap holds its code, and a rejection holds its code: the codes' part of `HaltInv`. -/
structure CodesHeld (s : State) : Prop where
  trap : s.fatal = true ↔ s.fatalCode ≠ none
  rejection : s.cmdErr = true ↔ s.cmdCode ≠ none

theorem CodesHeld.of_same {s t : State} (hs : CodesHeld s) (h : SameCodes s t) : CodesHeld t := by
  constructor
  · rw [h.fatal, h.fatalCode]
    exact hs.trap
  · rw [h.cmdErr, h.cmdCode]
    exact hs.rejection

theorem CodesHeld.accept {s : State} (hs : CodesHeld s) (v : RegWord) : CodesHeld (s.accept v) :=
  hs.of_same ⟨rfl, rfl, rfl, rfl⟩

theorem CodesHeld.reject {s : State} (hs : CodesHeld s) (e : RejectCode) : CodesHeld (s.reject e) :=
  ⟨hs.trap, iff_of_true rfl nofun⟩

theorem CodesHeld.raiseFatal {s : State} (hs : CodesHeld s) (code : FatalCause) : CodesHeld (s.raiseFatal code) :=
  ⟨iff_of_true rfl nofun, hs.rejection⟩

/-- R271: `IRQ_CLEAR` clears the rejection with its code, or neither. -/
theorem CodesHeld.irqClear {s : State} (hs : CodesHeld s) (v : RegWord) : CodesHeld (s.irqClear v) := by
  refine ⟨hs.trap, ?_⟩
  rw [State.irqClear_eq]
  dsimp only
  split
  · exact iff_of_false nofun fun h => h rfl
  · exact hs.rejection

/-- R310: after reset there is neither a trap nor a rejection. -/
theorem CodesHeld.resetWith (cfg : Config) (v : BitVec 16) (b : Bool) : CodesHeld (State.resetWith cfg v b) :=
  ⟨iff_of_false nofun fun h => h rfl, iff_of_false nofun fun h => h rfl⟩

theorem CodesHeld.commandEnds {i : Instr} {s t : State} (hs : CodesHeld s) (h : CommandEnds i s t) : CodesHeld t := by
  cases h with
  | accepted v codes => exact (hs.of_same codes).accept v
  | cleared v => exact (hs.irqClear v).accept 0
  | rejected e => exact hs.reject e
  | tipMismatch => exact (hs.raiseFatal .tipMismatch).reject .halted

/-- R225, R226: a completion traps with a code, or leaves the codes alone. -/
theorem CodesHeld.evAdc {s : State} (hs : CodesHeld s) (tag : MuxCode) (raw : BitVec 16) :
    CodesHeld (s.evAdc tag raw) := by
  rcases State.evAdc_cases tag raw s with ⟨-, h⟩ | h | ⟨-, -, -, h | ⟨u, taken, h⟩⟩ <;> rw [h]
  · exact hs
  · exact hs.raiseFatal .adcDesync
  · exact CodesHeld.raiseFatal (s := { s with adcBusy := false }) ⟨hs.trap, hs.rejection⟩ .measMux
  · rw [State.adcAdvance_frame, taken.frame]
    exact ⟨hs.trap, hs.rejection⟩

theorem exec_codesHeld {i : Instr} {s t : State} (hi : i.issuable = true) (hs : CodesHeld s)
    (h : exec i s = .next t) : CodesHeld t := by
  by_cases host : i.isHost = true
  · exact hs.commandEnds (exec_host_ends host h)
  by_cases rst : i = .evRst
  · subst rst
    cases h
    exact .resetWith ..
  by_cases adc : IsConversion i
  · obtain ⟨tag, raw, rfl⟩ := adc
    rw [execEvAdc_eq h]
    exact hs.evAdc tag raw
  · exact hs.of_same ((exec_written hi rst h).1.sameCodes adc host)

theorem step_codesHeld {s t : State} (hs : CodesHeld s) (h : step s = .next t) : CodesHeld t := by
  have begun (st : Stimulus) : CodesHeld (s.beginStep st) := hs.of_same ⟨rfl, rfl, rfl, rfl⟩
  obtain ⟨-, rfl | ⟨st, -, ⟨i, -, hi, hexec⟩ | rfl⟩⟩ := step_cases h
  · exact hs.of_same ⟨rfl, rfl, rfl, rfl⟩
  · exact exec_codesHeld hi (begun st) hexec
  · exact (begun st).reject .illegal

/-- Settles O17: the codes are held, and a halted machine stays undriven (O18). -/
theorem haltInvariantKept : Obligations.HaltInvariantKept := by
  intro s t hs h
  have undriven := step_undriven hs.undriven h
  obtain ⟨trap, -, rejection⟩ := hs
  obtain ⟨trap', rejection'⟩ := step_codesHeld ⟨trap, rejection⟩ h
  exact ⟨trap', fun halted => ⟨undriven halted .ch0, undriven halted .ch1⟩, rejection'⟩

end Sys2Proof.Machine

/-! # The order of the stimuli, and the pin `rst` (R60, R62, R286, R310) -/

namespace Sys2Proof.Machine

/-! The command port (R96) -/

/-- With a legal configuration a word taken from the command port runs the host command it decodes to, and every
other word is rejected. -/
theorem step_of_command {s : State} {w : StimWord} (hc : configLegal s.cfg = true)
    (hst : s.nextStimulus = some (.cmd w)) : step s =
      match decode w with
      | .ok i => if i.isHost then exec i (s.beginStep (.cmd w)) else .next (s.beginStep (.cmd w)).rejectIllegal
      | .error _ => .next (s.beginStep (.cmd w)).rejectIllegal := by
  cases hdecode : decode w with
  | error e => exact step_of_no_instr hc hst (commandInstr_eq_none fun i hi => by cases hdecode.symm.trans hi)
  | ok i =>
    dsimp only
    split
    next host => exact step_of_instr hc hst (commandInstr_of_isHost hdecode host)
    next other =>
      refine step_of_no_instr hc hst (commandInstr_eq_none fun j hj => ?_)
      cases hdecode.symm.trans hj
      exact Bool.eq_false_iff.2 other

/-! Holding the pin `rst` (R60, R310) -/

theorem State.nextStimulus_of_rst {s : State} (h : s.rst = true ∨ s.pend.rst = true) :
    s.nextStimulus = some .rst := by
  unfold State.nextStimulus
  split
  · rfl
  next released =>
    unfold Pending.first
    exact if_pos (h.resolve_left released)

/-- R310: no stimulus is latched. -/
theorem State.latch_of_rst {s : State} (h : s.rst = true) (f : Pending → Pending) : s.latch f = s := if_pos h

/-- R310: every step is the reset. -/
theorem step_of_rst {s : State} (hc : configLegal s.cfg = true) (h : s.rst = true) :
    step s = .next (State.resetWith s.cfg s.chipTempIn s.rst) :=
  step_of_instr hc (State.nextStimulus_of_rst (.inl h)) rfl

/-- R310: the output pins show their reset values. -/
theorem State.outputPins_of_rst {s : State} (h : s.rst = true) :
    s.outputPins = (State.resetWith s.cfg s.chipTempIn s.rst).writtenPins := if_pos h

/-! The latches (R62, R286) -/

/-- R288: with nothing pending the machine waits. -/
theorem step_of_idle {s : State} (hc : configLegal s.cfg = true) (hst : s.nextStimulus = none) :
    step s = .next s.dropPulses := by
  simp [step, hc, hst]

/-- Settles O6: the latches in the order of R286; what a held `rst` does; a hold and EV.RST leave the same
state. -/
theorem stimuliTakenInOrder : Obligations.StimuliTakenInOrder := by
  refine ⟨?_, ?_, fun _ => ⟨rfl, rfl⟩⟩
  · intro s hc rest
    have taken {st : Stimulus} {i : Instr} (hst : s.nextStimulus = some st) (hi : st.instr = some i) :
        step s = exec i (rest (s.pend.take st)) := step_of_instr hc hst hi
    by_cases rst : s.rst = true ∨ s.pend.rst = true
    · rw [if_pos rst]
      exact taken (State.nextStimulus_of_rst rst) rfl
    rw [if_neg rst]
    obtain ⟨released, unlatched⟩ := not_or.1 rst
    have first := State.nextStimulus_of_not_rst (Bool.eq_false_iff.2 released)
    rw [Pending.first, if_neg unlatched] at first
    by_cases oc : s.pend.oc = true
    · rw [if_pos oc] at first ⊢
      exact taken first rfl
    rw [if_neg oc] at first ⊢
    by_cases zc : s.pend.zc = true
    · rw [if_pos zc] at first ⊢
      exact taken first rfl
    rw [if_neg zc] at first ⊢
    by_cases tmr : s.pend.tmr = true
    · rw [if_pos tmr] at first ⊢
      exact taken first rfl
    rw [if_neg tmr] at first ⊢
    cases hadc : s.pend.adc with
    | some x =>
      rw [hadc] at first
      exact taken first rfl
    | none =>
      rw [hadc] at first
      cases hcmd : s.pend.cmd with
      | none =>
        rw [hcmd] at first
        exact step_of_idle hc first
      | some w =>
        rw [hcmd] at first
        exact step_of_command hc first
  · intro s held
    have lost := State.latch_of_rst held
    exact ⟨fun hc => ⟨_, step_of_rst hc held, rfl, held⟩, lost _, lost _, lost _, fun _ _ => lost _,
      fun _ => lost _, State.outputPins_of_rst held⟩

end Sys2Proof.Machine

/-! # The reset (R65, R310, R312) -/

namespace Sys2Proof.Machine

/-- R310: EV.RST reads nothing of the state but its parameters and the platform's level pins. -/
theorem exec_evRst (s : State) : exec .evRst s = .next (State.resetWith s.cfg s.chipTempIn s.rst) := rfl

theorem resetWith_q (cfg : Config) (v : BitVec 16) (b : Bool) :
    (State.resetWith cfg v b).q = Vector.replicate 8 muxEnd := rfl

/-- R22: the queue is empty, its end marker in every place. -/
theorem resetWith_qAt (cfg : Config) (v : BitVec 16) (b : Bool) {i : Nat} (hi : i < 8) :
    (State.resetWith cfg v b).qAt i = muxEnd := by
  rw [State.qAt, resetWith_q, Vector.toList_replicate, List.getElem?_replicate, if_pos hi, Option.getD_some]

/-- Settles O42: the elements of R21 to R24 and R31, the pins and the latches are read off the state EV.RST leads
to; the queue and the channels have their own lemmas. -/
theorem resetLeavesResetValues : Obligations.ResetLeavesResetValues := fun s =>
  ⟨State.resetWith s.cfg s.chipTempIn s.rst, exec_evRst s, rfl, fun _ hi => resetWith_qAt _ _ _ hi,
    resetWith_chan _ _ _⟩

end Sys2Proof.Machine
